-- ==== Sys2Proof/Word.lean ====
section
/-! DEFINITION. The fixed widths of CLE's bit fields (10_state.md sections 2 to 7, 30_encoding.md rules R103 to R109). -/

namespace Sys2Proof

/-- One byte of a storage device or of the boundary store (R70, R71). -/
abbrev Byte := BitVec 8

/-- An audio sample on ADC, DAC and in storage, `SAMPLE_BITS` = 12 (R7). -/
abbrev Sample := BitVec 12

/-- `MIX`: signed 12 bits, read with `toInt` (R31). -/
abbrev Mix := BitVec 12

/-- A filter accumulator: signed 24 bits, `ACC_BITS` = 24 (R32, R36). -/
abbrev Accum := BitVec 24

/-- A cursor register: signed 25 bits, `CUR_BITS` = 25 (R27, R28, R29, R30). -/
abbrev Cursor := BitVec 25

/-- The 24-bit quantities: host data, `END`, `GCNT`, `SPG` and the millisecond times (R7). -/
abbrev Word24 := BitVec 24

/-- A host register number: the 6-bit `reg` field (R41, R103). -/
abbrev RegNumber := BitVec 6

/-- A stimulus word (R104). -/
abbrev StimWord := BitVec 32

/-- The tick dispatch word `TD` (R108). -/
abbrev TickWord := BitVec 8

/-- The control dispatch word `CD` (R109). -/
abbrev ControlWord := BitVec 16

end Sys2Proof
end

