-- ==== Sys2Proof/Config.lean ====
section
/-! DEFINITION. The implementation parameters of 00_scope.md rule R7, each row a named constant, and the one value the
spec leaves free. The widths among them are those of the types of Word.lean (Laws/Config.lean says so); what
`STORE_INIT` and `NV_INIT` hold is data of the state (logs 5, 6). -/

namespace Sys2Proof.Config

/-- `N_SLOTS`: sample slots (R7). -/
@[simp] abbrev nSlots : Nat := 4

/-- `N_CHIPS`: physical storage devices (R7). -/
@[simp] abbrev nChips : Nat := 2

/-- `SAMPLE_BITS`: width of an audio sample (R7). -/
@[simp] abbrev sampleBits : Nat := 12

/-- `END_BITS`: width of `END[s]` (R7). -/
@[simp] abbrev endBits : Nat := 24

/-- `ACC_BITS`: width of a filter accumulator (R7, D36). -/
@[simp] abbrev accBits : Nat := 24

/-- `CUR_BITS`: width of a signed cursor register (R7, D44). -/
@[simp] abbrev curBits : Nat := 25

/-- `CNT_BITS`: width of `GCNT` and `SPG` (R7, D44). -/
@[simp] abbrev cntBits : Nat := 24

/-- `TIME_BITS`: width of the millisecond time registers (R7, D18). -/
@[simp] abbrev timeBits : Nat := 24

/-- `FRAC`: fractional bits of every fixed-point coefficient (R7, D36). -/
@[simp] abbrev frac : Nat := 8

/-- `NV_BYTES`: boundary store bytes used, three for each slot (R7). -/
@[simp] abbrev nvBytes : Nat := 12

/-- `DEV_TOP`: top offset of each storage device (R7, D8). -/
@[simp] def devTop : Int := 65535

/-- `DEV_BYTES`: addressable units of a device (R7, D8). -/
@[simp] def devBytes : Nat := 65536

/-- Offsets the `NV` port can name: `off[3:0]` of R114, of which `nvBytes` are used (R73). -/
@[simp] def nvOffsets : Nat := 16

/-- `STRIDE`: raw address units of one packed transaction (R7). -/
@[simp] def stride : Int := 3

/-- `DEBOUNCE_MS`: both 20 ms guards (R7). -/
@[simp] def debounceMs : Nat := 20

/-- `MIX_MIN`: lower end of the signed 12-bit clamp range (R7). -/
@[simp] def mixMin : Int := -2048

/-- `MIX_MAX`: upper end of the signed 12-bit clamp range (R7). -/
@[simp] def mixMax : Int := 2047

/-- `DC_OFFSET`: the re-centring constant between signed and unsigned 12-bit values (R7, D37). -/
@[simp] def dcOffset : Int := 2048

/-- `RES_MIN`: fewest bits of resolution kept (R7). -/
@[simp] def resMin : Nat := 1

/-- `RES_MAX`: most bits of resolution kept (R7). -/
@[simp] def resMax : Nat := 12

/-- `2 ^ FRAC`, the divisor of every scaled product (R208, R221). -/
@[simp] def fracScale : Nat := 2 ^ frac

/-- `2 ^ ACC_BITS`, the modulus of `wrap24` (R9). -/
@[simp] def accSpan : Nat := 2 ^ accBits

/-- `2 ^ (ACC_BITS - 1)`, the offset of `wrap24` (R9). -/
@[simp] def accHalf : Nat := 2 ^ (accBits - 1)

/-- The largest `SPG`: `2 ^ CNT_BITS - 1` (R208). -/
@[simp] def spgMax : Nat := 2 ^ cntBits - 1

/-- `RATE_RESET`: reset value of the rate registers, in Hz (R7, D41). -/
@[simp] def rateReset : BitVec 16 := 16000#16

/-- The default of the OPEN parameter `FREE_SPACE_OK` (R7, R155, D17). -/
@[simp] def freeSpaceDefault : Bool := true

/-- What a byte of memory that no entry lists reads as.
DESIGN CHOICE (logs 5, 6), unsafe: the spec leaves `STORE_INIT` and `NV_INIT` OPEN (R7, R46). -/
@[simp] def unlistedByte : Byte := 0#8

/-- `u mod E(s)` for a negative extent `E(s)`: FREE. R8 gives `a mod b` for `b > 0` only, and R201 folds by an extent
that is negative for a descending slot whose `END` is above 65535, which only contents of `NV` that violate R344 give.
DESIGN CHOICE (log 16), safe: no value of it can be proved. -/
opaque foldByNegativeExtent (u e : Int) : Int

end Sys2Proof.Config
end

