-- ==== Sys2Proof/Syntax.lean ====
section
/-! DEFINITION. The names CLE's operations are made of, and the operations themselves: one constructor of
`Instr` per row of spec/opcode_table.json (30_encoding.md rule R110). -/

namespace Sys2Proof

/-- A slot id, 0 to 3 (R21). -/
inductive SlotId where
  | slot0 | slot1 | slot2 | slot3
deriving DecidableEq, Repr

/-- A storage device (R22, R71). -/
inductive Chip where
  | a | b
deriving DecidableEq, Repr

/-- `MODE`: the five codes of R23 and R106 and no other ("a model should make `MODE` a five-constructor type"). -/
inductive Mode where
  | off | passthrough | record | recordDone | playback
deriving DecidableEq, Repr

/-- `TOUT`: how the most recent audio tick ended (R39, R115); code 3 is never written and has no constructor. -/
inductive TickOutcome where
  | continued | substituted | terminated
deriving DecidableEq, Repr

/-- The mapped host registers (R41). -/
inductive HostReg where
  | ctrl | gest | msNow | rate | bitres | cutLp | fbLp | cutHp | fbHp | grainSize | stretch | cmd
  | mode | status | pcur | wcur | gaddr | gcnt | spg | anchor | end0 | end1 | end2 | end3
  | recRate | tickRate | out | mix | lpBuf0 | lpBuf1 | hpBuf0 | hpBuf1 | inp | rbuf | d0 | d1
  | tRecStart | tRecEnd
deriving DecidableEq, Repr

/-- One value for each of the four slots (R21). -/
structure PerSlot (α : Type) where
  slot0 : α
  slot1 : α
  slot2 : α
  slot3 : α
deriving DecidableEq, Repr

/-- The operations a tick dispatch word selects for steps S1 to S4 (R108). -/
inductive TickOp where
  | off | pass | recEven | recOdd | done | playEven | playOdd | playGrain | playFreeze
deriving DecidableEq, Repr

/-- The transitions step K3 of a control tick chooses from (R109, R143). -/
inductive Transition where
  | recStart (k : SlotId) | playStart (k : SlotId) | recStop | recAck | playStop | none
deriving DecidableEq, Repr

/-- The operations of CLE: one constructor per row of the opcode table (R110). -/
inductive Instr where
  /-- `HRD reg` (R290) -/
  | hrd (reg : RegNumber)
  /-- `HWR reg, data` (R291) -/
  | hwr (reg : RegNumber) (data : Word24)
  /-- `ATICK ain` (R294) -/
  | atick (ain : Sample)
  /-- `RESET` (R295) -/
  | reset
  /-- `CTICK` (R293) -/
  | ctick
  /-- `HWR CTRL, data`: `data[0]` is the new `TICK_EN`, `data[1]` clears `OVR` (R296) -/
  | hwrCtrl (tickEn ovrClear : Bool)
  /-- `AT.OFF` (R257) -/
  | atOff
  /-- `AT.PASS` (R258) -/
  | atPass
  /-- `AT.REC.E` (R259) -/
  | atRecE
  /-- `AT.REC.O` (R260) -/
  | atRecO
  /-- `AT.DONE` (R261) -/
  | atDone
  /-- `AT.PLAY.E` (R262) -/
  | atPlayE
  /-- `AT.PLAY.O` (R263) -/
  | atPlayO
  /-- `AT.PLAY.G` (R264) -/
  | atPlayG
  /-- `AT.PLAY.F` (R265) -/
  | atPlayF
  /-- `DSP.FQ` (R227) -/
  | dspFq
  /-- `DSP.BYP` (R228) -/
  | dspByp
  /-- `CT.RECSTART(k)` (R144) -/
  | ctRecstart (k : SlotId)
  /-- `CT.PLAYSTART(k)` (R148) -/
  | ctPlaystart (k : SlotId)
  /-- `CT.RECSTOP` (R145) -/
  | ctRecstop
  /-- `CT.RECACK` (R147) -/
  | ctRecack
  /-- `CT.PLAYSTOP` (R149) -/
  | ctPlaystop
  /-- `CT.NONE` (R150) -/
  | ctNone
  /-- `CT.DIR` (R141) -/
  | ctDir
  /-- `CT.SPG` (R142) -/
  | ctSpg
  /-- `CT.MOD` (R152) -/
  | ctMod
  /-- `CT.RATE` (R153) -/
  | ctRate
  /-- `CT.COMMIT` (R151) -/
  | ctCommit
  /-- `MAP.SR(s, c)` (R180) -/
  | mapSr (s : SlotId) (c : Cursor)
  /-- `MAP.SW(s, c, a, b)` (R181) -/
  | mapSw (s : SlotId) (c : Cursor) (a b : Sample)
  /-- `GR.STEP(s)` (R203) -/
  | grStep (s : SlotId)
deriving DecidableEq, Repr

/-- The row of a tick operation. -/
def TickOp.instr : TickOp → Instr
  | .off => .atOff
  | .pass => .atPass
  | .recEven => .atRecE
  | .recOdd => .atRecO
  | .done => .atDone
  | .playEven => .atPlayE
  | .playOdd => .atPlayO
  | .playGrain => .atPlayG
  | .playFreeze => .atPlayF

/-- The row of a transition. -/
def Transition.instr : Transition → Instr
  | .recStart k => .ctRecstart k
  | .playStart k => .ctPlaystart k
  | .recStop => .ctRecstop
  | .recAck => .ctRecack
  | .playStop => .ctPlaystop
  | .none => .ctNone

end Sys2Proof
end

