-- ==== Sys2Proof/Machine/Operands.lean ====
section
/-! DEFINITION. The operand functions of the spec, as pure functions: the narrowings of R9, slot geometry (R22),
the address mapper (R171 to R182), the grain window (R201, R202, R208), packing (R177, R178), the gesture bits
(R107), legalised parameters (R292) and the register map (R41). Arithmetic is on `Int` and `Nat` and a result is
narrowed only where a rule names it (R8). -/

namespace Sys2Proof.Machine

/-! ### Narrowing functions (R9) -/

/-- `clamp12` of R9: narrow to the signed 12-bit range. -/
def clamp12 (x : Int) : Int :=
  if x < Config.mixMin then Config.mixMin else if x > Config.mixMax then Config.mixMax else x

/-- `wrap24` of R9: narrow to signed 24 bits by wrapping. -/
def wrap24 (x : Int) : Int := (x + Config.accHalf) % Config.accSpan - Config.accHalf

/-- `sat(x, lo, hi)` of R9. -/
def sat (x lo hi : Nat) : Nat := if x < lo then lo else if x > hi then hi else x

/-- An unsigned 12-bit sample as the signal it stands for: `v - 2048` (R266). -/
def signal (v : Sample) : Int := (v.toNat : Int) - Config.dcOffset

/-! ### Slots (R21, R22) -/

/-- The number of a slot. -/
def slotNumber : SlotId → Nat
  | .slot0 => 0
  | .slot1 => 1
  | .slot2 => 2
  | .slot3 => 3

/-- The 2-bit encoding of a slot: its id (R115). -/
def slotBits (k : SlotId) : BitVec 2 := BitVec.ofNat 2 (slotNumber k)

/-- The slot a 2-bit field names (R115). -/
def slotOfBits (b : BitVec 2) : SlotId :=
  match b.toNat with
  | 0 => .slot0
  | 1 => .slot1
  | 2 => .slot2
  | _ => .slot3

/-- The value a per-slot table holds for a slot. -/
def slotGet {α : Type} (t : PerSlot α) : SlotId → α
  | .slot0 => t.slot0
  | .slot1 => t.slot1
  | .slot2 => t.slot2
  | .slot3 => t.slot3

/-- A per-slot table with one slot's value replaced. -/
def slotSet {α : Type} (t : PerSlot α) (k : SlotId) (v : α) : PerSlot α :=
  match k with
  | .slot0 => { t with slot0 := v }
  | .slot1 => { t with slot1 := v }
  | .slot2 => { t with slot2 := v }
  | .slot3 => { t with slot3 := v }

/-- `chip(s)`: even slots on A, odd slots on B (R22). -/
def chipOf : SlotId → Chip
  | .slot0 => .a
  | .slot1 => .b
  | .slot2 => .a
  | .slot3 => .b

/-- `σ(s)`: ascending +1, descending -1 (R22). -/
def sigma : SlotId → Int
  | .slot0 => 1
  | .slot1 => -1
  | .slot2 => 1
  | .slot3 => -1

/-- `origin(s)`: 0, or `DEV_TOP` for odd slots (R22). -/
def origin : SlotId → Int
  | .slot0 => 0
  | .slot1 => Config.devTop
  | .slot2 => 0
  | .slot3 => Config.devTop

/-! ### The address mapper (R171 to R176, R182); `rev` is `DIR = 1`, `e` is `END[s]` -/

/-- `dist(s, c)`: distance from the origin, away from it (R171). -/
def distOf (k : SlotId) (c : Int) : Int := sigma k * (c - origin k)

/-- `E(s)`: the extent, the distance of `END[s]` (R171). -/
def extent (k : SlotId) (e : Int) : Int := distOf k e

/-- `dsign`: +1 forward, -1 reverse (R201, R202). -/
def dirSign (rev : Bool) : Int := if rev then -1 else 1

/-- `eff(s) = σ(s) * dirv`, the address step of one transaction (R172). -/
def effStep (k : SlotId) (rev : Bool) : Int := sigma k * (dirSign rev * Config.stride)

/-- `start(s)` (R173). -/
def startOffset (k : SlotId) (rev : Bool) (e : Int) : Int :=
  if rev = false then origin k
  else if e = origin k then origin k
  else e - sigma k * Config.stride

/-- `reset(s)` (R174). -/
def resetOffset (k : SlotId) (rev : Bool) (e : Int) : Int := if rev = false then e else origin k

/-- `passed(s, c)`: the reset boundary is reached or passed (R175). -/
def passed (k : SlotId) (rev : Bool) (e c : Int) : Bool :=
  if rev = false then decide (distOf k c ≥ extent k e) else decide (distOf k c ≤ 0)

/-- `wrap(s, c)` (R175). -/
def wrapCursor (k : SlotId) (rev : Bool) (e c : Int) : Int :=
  if passed k rev e c then startOffset k rev e else c

/-- `base(s, c)`: the lowest of the three bytes of the record at cursor `c` (R176). -/
def recordBase (k : SlotId) (c : Int) : Int := if sigma k = 1 then c else c - 2

/-- A record base a packed transaction is defined for: `0 <= b <= DEV_TOP - 2` (R72, R87). -/
def baseInRange (b : Int) : Bool := decide (0 ≤ b ∧ b ≤ Config.devTop - 2)

/-- `overflow(s, c)`, on the advanced write cursor (R182). -/
def overflow (k : SlotId) (c : Int) : Bool := decide (distOf k c > Config.devTop - 2)

/-! ### Packing (R177, R178) -/

/-- The three bytes of a packed record, in address order (R101). -/
structure Packed where
  y0 : Byte
  y1 : Byte
  y2 : Byte
deriving DecidableEq, Repr

/-- `pack(a, b) = (a[11:4], a[3:0] ‖ b[11:8], b[7:0])` (R177). -/
def pack (a b : Sample) : Packed where
  y0 := a.extractLsb' 4 8
  y1 := a.extractLsb' 0 4 ++ b.extractLsb' 8 4
  y2 := b.extractLsb' 0 8

/-- `unpack(y0, y1, y2)`: two unsigned 12-bit values (R178). -/
def unpack (p : Packed) : Sample × Sample :=
  (p.y0 ++ p.y1.extractLsb' 4 4, p.y1.extractLsb' 0 4 ++ p.y2)

/-! ### The grain window (R201, R202, R208) -/

/-- The fold of R201: 0 in an empty extent, the Euclidean remainder by a positive one. By a negative extent, which
needs contents of `NV` that violate R344, the spec gives no remainder (R8), and the value is free (log 16). -/
def foldIntoExtent (u e : Int) : Int :=
  if e = 0 then 0 else if 0 < e then u % e else Config.foldByNegativeExtent u e

/-- `gpos(s)`: the grain read position, folded into the extent (R201; log 16 for a negative extent). -/
def grainPos (k : SlotId) (rev : Bool) (e gaddr : Int) (gcnt : Nat) : Int :=
  origin k + sigma k *
    foldIntoExtent (distOf k gaddr + dirSign rev * Config.stride * gcnt) (extent k e)

/-- `gnext(s)`: the next window start; `anchor` is `ANCHOR` where `FREEZE_ACT = 1` (R202). -/
def grainNext (k : SlotId) (rev : Bool) (e gaddr : Int) (size : Nat) (anchor : Option Int) : Int :=
  let c := gaddr + sigma k * dirSign rev * Config.stride * size
  if passed k rev e c then anchor.getD (startOffset k rev e) else c

/-- `SPGcalc` (R208): exact product, one division, saturated to 1 .. 2^24 - 1. A `REC_RATE` of 0, which R48 excludes,
divides to 0 (log 11). -/
def spgCalc (stretch size rate recRate : Nat) : Nat :=
  sat (stretch * size * rate / (Config.fracScale * recRate)) 1 Config.spgMax

/-! ### The bit mask (R224) -/

/-- `mask(r) = (0xFFF << (12 - r)) & 0xFFF` for `r` in 1..12 (R224). `BITRES` holds no other value (R292, log 11). -/
def bitMask (r : Nat) : Sample := 0xFFF#12 <<< (Config.resMax - r)

/-! ### Mode and outcome codes (R23, R115) -/

/-- The numeric code of a mode (R23, R106). -/
def modeCode : Mode → BitVec 3
  | .off => 0
  | .passthrough => 1
  | .record => 2
  | .recordDone => 3
  | .playback => 4

/-- The mode a code names; 5, 6 and 7 are reserved (R106). -/
def modeOfCode (c : BitVec 3) : Option Mode :=
  match c.toNat with
  | 0 => some .off
  | 1 => some .passthrough
  | 2 => some .record
  | 3 => some .recordDone
  | 4 => some .playback
  | _ => none

/-- The numeric code of a tick outcome (R115). -/
def outcomeCode : TickOutcome → BitVec 2
  | .continued => 0
  | .substituted => 1
  | .terminated => 2

/-! ### Gestures and time (R34, R35, R107) -/

/-- `rec`, bit 0 of `GEST`. -/
def gestRec (g : BitVec 8) : Bool := g.getLsbD 0

/-- `sel[k]`, bit `1 + k` of `GEST`. -/
def gestSel (g : BitVec 8) (k : SlotId) : Bool := g.getLsbD (1 + slotNumber k)

/-- `rev`, bit 5 of `GEST`. -/
def gestRev (g : BitVec 8) : Bool := g.getLsbD 5

/-- `grain`, bit 6 of `GEST`. -/
def gestGrain (g : BitVec 8) : Bool := g.getLsbD 6

/-- `bypass`, bit 7 of `GEST`. -/
def gestBypass (g : BitVec 8) : Bool := g.getLsbD 7

/-- The slots in order of their ids. -/
def allSlots : List SlotId := [.slot0, .slot1, .slot2, .slot3]

/-- The one slot selected, if exactly one select is asserted: `one(sel)` (R109). -/
def oneSelected (g : BitVec 8) : Option SlotId :=
  match allSlots.filter (gestSel g) with
  | [k] => some k
  | _ => none

/-- `(MS_NOW - T) mod 2^24` (R35). -/
def elapsed (now t : Word24) : Nat := (now - t).toNat

/-! ### Legalised parameters (R292) -/

/-- `RATE` and `GRAIN_SIZE`: `max(1, data[15:0])` (R292). -/
def legalAtLeastOne (d : Word24) : BitVec 16 :=
  if d.extractLsb' 0 16 = 0#16 then 1#16 else d.extractLsb' 0 16

/-- `BITRES`: `min(12, max(1, data[3:0]))` (R292). -/
def legalBitres (d : Word24) : BitVec 4 :=
  BitVec.ofNat 4 (min Config.resMax (max Config.resMin (d.extractLsb' 0 4).toNat))

/-! ### The register map (R41) -/

/-- The number of a host register (R41). -/
def hostRegNumber : HostReg → RegNumber
  | .ctrl => 0x00 | .gest => 0x01 | .msNow => 0x02 | .rate => 0x03 | .bitres => 0x04
  | .cutLp => 0x05 | .fbLp => 0x06 | .cutHp => 0x07 | .fbHp => 0x08 | .grainSize => 0x09
  | .stretch => 0x0A | .cmd => 0x0F | .mode => 0x10 | .status => 0x11 | .pcur => 0x12
  | .wcur => 0x13 | .gaddr => 0x14 | .gcnt => 0x15 | .spg => 0x16 | .anchor => 0x17
  | .end0 => 0x18 | .end1 => 0x19 | .end2 => 0x1A | .end3 => 0x1B | .recRate => 0x1C
  | .tickRate => 0x1D | .out => 0x1E | .mix => 0x1F | .lpBuf0 => 0x20 | .lpBuf1 => 0x21
  | .hpBuf0 => 0x22 | .hpBuf1 => 0x23 | .inp => 0x24 | .rbuf => 0x25 | .d0 => 0x26 | .d1 => 0x27
  | .tRecStart => 0x28 | .tRecEnd => 0x29

/-- The mapped registers in order of their numbers (R41). -/
def allHostRegs : List HostReg :=
  [.ctrl, .gest, .msNow, .rate, .bitres, .cutLp, .fbLp, .cutHp, .fbHp, .grainSize, .stretch, .cmd,
   .mode, .status, .pcur, .wcur, .gaddr, .gcnt, .spg, .anchor, .end0, .end1, .end2, .end3,
   .recRate, .tickRate, .out, .mix, .lpBuf0, .lpBuf1, .hpBuf0, .hpBuf1, .inp, .rbuf, .d0, .d1,
   .tRecStart, .tRecEnd]

/-- The register a number names, if the number is mapped (R41, R297). -/
def hostRegOfNumber (n : RegNumber) : Option HostReg :=
  allHostRegs.find? (fun r => hostRegNumber r == n)

end Sys2Proof.Machine
end

