-- ==== Sys2Proof/WellFormed.lean ====
section
/-! DEFINITION. Which instructions are the reading of some word, or meet a stated precondition.
A general `HWR` never stands for the words its specialisations `HWR.CTRL` and `CTICK` claim first (R110), and a
mapped transaction names a record base its rule is defined for (R180, R181). -/

namespace Sys2Proof

/-- `HWR reg, data` is not one of the words `HWR.CTRL` (register 0x00) and `CTICK` (register 0x0F with
`data[0] = 1`) are tried for first (R110, R293, R296). -/
def generalWrite (reg : RegNumber) (data : Word24) : Bool :=
  !(reg == 0x00#6) && !(reg == 0x0F#6 && data.getLsbD 0)

/-- The precondition of `MAP.SR` and `MAP.SW` (R180, R181). -/
def mappedInRange (k : SlotId) (c : Cursor) : Bool :=
  Machine.baseInRange (Machine.recordBase k c.toInt)

/-- Well-formed instructions. -/
def Instr.wellFormed : Instr → Bool
  | .hwr reg data => generalWrite reg data
  | .mapSr k c => mappedInRange k c
  | .mapSw k c _ _ => mappedInRange k c
  | .hrd _ => true
  | .atick _ => true
  | .reset => true
  | .ctick => true
  | .hwrCtrl _ _ => true
  | .atOff => true
  | .atPass => true
  | .atRecE => true
  | .atRecO => true
  | .atDone => true
  | .atPlayE => true
  | .atPlayO => true
  | .atPlayG => true
  | .atPlayF => true
  | .dspFq => true
  | .dspByp => true
  | .ctRecstart _ => true
  | .ctPlaystart _ => true
  | .ctRecstop => true
  | .ctRecack => true
  | .ctPlaystop => true
  | .ctNone => true
  | .ctDir => true
  | .ctSpg => true
  | .ctMod => true
  | .ctRate => true
  | .ctCommit => true
  | .grStep _ => true

end Sys2Proof
end

