-- ==== Sys2Proof/Decode.lean ====
section
/-! DEFINITION. Decoding of the three word formats (30_encoding.md: stimulus word R104, tick dispatch word R108,
control dispatch word R109), total and refusing by name, and after it the encoder of the same tables. -/

namespace Sys2Proof

/-- Why a dispatch word is refused. A stimulus word is never refused: all four kinds are allocated (R111). -/
inductive DecodeError where
  /-- `TD[7]` is 0 in every tick dispatch word (R108). -/
  | tickBitSeven
  /-- `TD[2:0]` is a reserved mode code, 5 to 7: unreachable (R108, R111). -/
  | tickReservedMode
  /-- `CD[15:13]` is 0 in every control dispatch word (R109). -/
  | controlHighBits
  /-- The word is not of the format this step of an operation decodes (R110). -/
  | wrongFormat
deriving DecidableEq, Repr

/-! ### Stimulus words (R104) -/

/-- The instruction a stimulus word is: the specialisations `HWR.CTRL` and `CTICK` before the general `HWR` (R104,
R110). Reserved bits are ignored (R104, R111). -/
def decodeStim (w : StimWord) : Instr :=
  let reg := w.extractLsb' 24 6
  let data := w.extractLsb' 0 24
  match (w.extractLsb' 30 2).toNat with
  | 0 => .hrd reg
  | 1 => .atick (w.extractLsb' 0 12)
  | 2 =>
    if reg = 0x00#6 then .hwrCtrl (data.getLsbD 0) (data.getLsbD 1)
    else if reg = 0x0F#6 ∧ data.getLsbD 0 = true then .ctick
    else .hwr reg data
  | _ => .reset

/-! ### The tick dispatch word (R108) -/

/-- The fields of `TD` (R108). -/
structure TickFields where
  bypass : Bool
  freezeAct : Bool
  grainAct : Bool
  phase : Bool
  mode : Mode
deriving DecidableEq, Repr

/-- The word `0 ‖ bypass ‖ FREEZE_ACT ‖ GRAIN_ACT ‖ PHASE ‖ MODE` (R108). -/
def tickWordOf (f : TickFields) : TickWord :=
  (0#1 ++ BitVec.ofBool f.bypass ++ BitVec.ofBool f.freezeAct ++ BitVec.ofBool f.grainAct
    ++ BitVec.ofBool f.phase ++ Machine.modeCode f.mode : BitVec 8)

/-- The data-movement operation of steps S1 to S4 (R108). `TD[5:4] = 11` with `TD[3] = 0` in PLAYBACK is
unreachable and read as `AT.PLAY.G`, as R108 allows and the table's row has it. -/
def selectTick (f : TickFields) : TickOp :=
  match f.mode with
  | .off => .off
  | .passthrough => .pass
  | .record => if f.phase then .recOdd else .recEven
  | .recordDone => .done
  | .playback =>
    if f.phase then .playOdd
    else if f.grainAct then .playGrain
    else if f.freezeAct then .playFreeze
    else .playEven

/-- The fields of a tick dispatch word, or why it is none (R108, R111). -/
def tickFieldsOf (w : TickWord) : Except DecodeError TickFields :=
  if w.getLsbD 7 = true then .error .tickBitSeven
  else
    match Machine.modeOfCode (w.extractLsb' 0 3) with
    | some m => .ok ⟨w.getLsbD 6, w.getLsbD 5, w.getLsbD 4, w.getLsbD 3, m⟩
    | none => .error .tickReservedMode

/-- The operation of steps S1 to S4 a tick dispatch word selects (R108). -/
def decodeTick (w : TickWord) : Except DecodeError TickOp :=
  match tickFieldsOf w with
  | .ok f => .ok (selectTick f)
  | .error e => .error e

/-- The operation of step S5 a tick dispatch word selects: `TD[6]` (R108). -/
def decodeDsp (w : TickWord) : Except DecodeError Instr :=
  if w.getLsbD 7 = true then .error .tickBitSeven
  else if w.getLsbD 6 = true then .ok .dspByp
  else .ok .dspFq

/-! ### The control dispatch word (R109) -/

/-- The side conditions of R109 that are no bits of `CD`. -/
structure SideConds where
  /-- `(MS_NOW - T_REC_END) mod 2^24 >= 20` -/
  gapElapsed : Bool
  /-- `(MS_NOW - T_REC_START) mod 2^24 >= 20` -/
  lengthElapsed : Bool
  /-- `FREE_SPACE_OK` -/
  freeSpace : Bool
  /-- `RECORDED[s]` -/
  recorded : PerSlot Bool
deriving DecidableEq, Repr

/-- Every side condition granted: what a `CD` word says by its bits alone (log 10). -/
def sideCondsMet : SideConds := ⟨true, true, true, ⟨true, true, true, true⟩⟩

/-- The fields of `CD` (R109). -/
structure ControlFields where
  slot : SlotId
  mode : Mode
  gest : BitVec 8
deriving DecidableEq, Repr

/-- The word `000 ‖ SLOT ‖ MODE ‖ GEST` (R109). -/
def controlWordOf (f : ControlFields) : ControlWord :=
  (0#3 ++ Machine.slotBits f.slot ++ Machine.modeCode f.mode ++ f.gest : BitVec 16)

/-- The lowest slot that is selected and recorded (R143). -/
def lowestPlayable (g : BitVec 8) (recorded : PerSlot Bool) : Option SlotId :=
  Machine.allSlots.find? (fun k => Machine.gestSel g k && Machine.slotGet recorded k)

/-- The slot to record: `rec`, exactly one select, the debounce and the free-space guard (R143). -/
def recordTarget (c : SideConds) (g : BitVec 8) : Option SlotId :=
  if Machine.gestRec g = true ∧ c.gapElapsed = true ∧ c.freeSpace = true then Machine.oneSelected g else none

/-- Step K3's choice: the first matching row of R109 (R143). -/
def selectTransition (c : SideConds) (f : ControlFields) : Transition :=
  match f.mode with
  | .off | .passthrough =>
    match recordTarget c f.gest with
    | some k => .recStart k
    | none =>
      match lowestPlayable f.gest c.recorded with
      | some k => .playStart k
      | none => .none
  | .record =>
    if Machine.gestSel f.gest f.slot = false ∧ c.lengthElapsed = true then .recStop else .none
  | .recordDone => if Machine.gestRec f.gest = false then .recAck else .none
  | .playback => if Machine.gestSel f.gest f.slot = false then .playStop else .none

/-- The transition of step K3 a control dispatch word selects under given side conditions. A reserved mode code
matches only the row "any, otherwise": `CT.NONE` (R109). -/
def decodeTransition (c : SideConds) (w : ControlWord) : Except DecodeError Transition :=
  if w.extractLsb' 13 3 = 0#3 then
    match Machine.modeOfCode (w.extractLsb' 8 3) with
    | some m => .ok (selectTransition c ⟨Machine.slotOfBits (w.extractLsb' 11 2), m, w.extractLsb' 0 8⟩)
    | none => .ok .none
  else .error .controlHighBits

/-- An unconditional step of a control tick: its row for every control dispatch word (R109). -/
def decodeUnconditional (i : Instr) (w : ControlWord) : Except DecodeError Instr :=
  if w.extractLsb' 13 3 = 0#3 then .ok i else .error .controlHighBits

/-! ### All formats together (R110) -/

/-- An encoded object that selects an operation. -/
inductive Encoded where
  | stim (w : StimWord)
  | td (w : TickWord)
  | cd (w : ControlWord)
deriving DecidableEq, Repr

/-- The step in which a row is decoded; rows of different steps are not alternatives (R110). -/
inductive OpStep where
  | stimulus | s1to4 | s5 | k1 | k2 | k3 | k4 | k5
deriving DecidableEq, Repr

/-- The instruction a word selects in a given step (R104, R108, R109, R110). -/
def decodeAt (st : OpStep) (c : SideConds) (w : Encoded) : Except DecodeError Instr :=
  match st, w with
  | .stimulus, .stim x => .ok (decodeStim x)
  | .s1to4, .td x => (decodeTick x).map TickOp.instr
  | .s5, .td x => decodeDsp x
  | .k1, .cd x => decodeUnconditional .ctDir x
  | .k2, .cd x => decodeUnconditional .ctSpg x
  | .k3, .cd x => (decodeTransition c x).map Transition.instr
  | .k4, .cd x => decodeUnconditional .ctMod x
  | .k5, .cd x => decodeUnconditional .ctRate x
  | _, _ => .error .wrongFormat

/-- The instruction read from a word of the opcode table's numbering. An 8-bit word runs one operation of S1-S4 and
one of S5, a 16-bit word one of each of K1 to K5 (R110): this names the operation of S1-S4 (of S5 where a reserved
mode code leaves none) and of K3 with its side conditions granted (log 10). -/
def decodeTableWord (nbits w : Nat) : Option Instr :=
  match nbits with
  | 32 => if w < 4294967296 then some (decodeStim (BitVec.ofNat 32 w)) else none
  | 8 =>
    if w < 256 then
      match decodeTick (BitVec.ofNat 8 w) with
      | .ok op => some op.instr
      | .error _ => (decodeDsp (BitVec.ofNat 8 w)).toOption
    else none
  | 16 =>
    if w < 65536 then ((decodeTransition sideCondsMet (BitVec.ofNat 16 w)).map Transition.instr).toOption
    else none
  | _ => none

/-! ### The encoder -/

/-- A host transaction or other event: kind, register field, data field (R103, R104). -/
def stimWordOf (kind : BitVec 2) (reg : RegNumber) (data : Word24) : StimWord :=
  (kind ++ reg ++ data : BitVec 32)

/-- `CD` with a mode code, the active slot 0 and the given gestures. -/
def controlWordFor (code : BitVec 3) (gest : BitVec 8) : ControlWord :=
  (0#5 ++ code ++ gest : BitVec 16)

/-- The gesture byte with `sel[k]` and `rec` as given and no other bit (R107). -/
def gestWith (k : SlotId) (record : Bool) : BitVec 8 :=
  (1#8 <<< (1 + Machine.slotNumber k)) ||| (BitVec.ofBool record).setWidth 8

/-- The step in which an instruction's row is decoded; the four sub-operations have none (R110). -/
def Instr.opStep : Instr → Option OpStep
  | .hrd _ => some .stimulus
  | .hwr _ _ => some .stimulus
  | .atick _ => some .stimulus
  | .reset => some .stimulus
  | .ctick => some .stimulus
  | .hwrCtrl _ _ => some .stimulus
  | .atOff => some .s1to4
  | .atPass => some .s1to4
  | .atRecE => some .s1to4
  | .atRecO => some .s1to4
  | .atDone => some .s1to4
  | .atPlayE => some .s1to4
  | .atPlayO => some .s1to4
  | .atPlayG => some .s1to4
  | .atPlayF => some .s1to4
  | .dspFq => some .s5
  | .dspByp => some .s5
  | .ctRecstart _ => some .k3
  | .ctPlaystart _ => some .k3
  | .ctRecstop => some .k3
  | .ctRecack => some .k3
  | .ctPlaystop => some .k3
  | .ctNone => some .k3
  | .ctDir => some .k1
  | .ctSpg => some .k2
  | .ctMod => some .k4
  | .ctRate => some .k5
  | .ctCommit => none
  | .mapSr _ _ => none
  | .mapSw _ _ _ _ => none
  | .grStep _ => none

/-- A word that stands for the instruction, with 0 in every bit its row leaves free; the four sub-operations have
no encoding of their own (R104, R108, R109, R110, R113). -/
def encode : Instr → Option Encoded
  | .hrd reg => some (.stim (stimWordOf 0#2 reg 0#24))
  | .hwr reg data => some (.stim (stimWordOf 2#2 reg data))
  | .atick ain => some (.stim (stimWordOf 1#2 0#6 (0#12 ++ ain : BitVec 24)))
  | .reset => some (.stim (stimWordOf 3#2 0#6 0#24))
  | .ctick => some (.stim (stimWordOf 2#2 0x0F#6 1#24))
  | .hwrCtrl en clr =>
    some (.stim (stimWordOf 2#2 0#6 (0#22 ++ BitVec.ofBool clr ++ BitVec.ofBool en : BitVec 24)))
  | .atOff => some (.td 0x00)
  | .atPass => some (.td 0x01)
  | .atRecE => some (.td 0x02)
  | .atRecO => some (.td 0x0A)
  | .atDone => some (.td 0x03)
  | .atPlayE => some (.td 0x04)
  | .atPlayO => some (.td 0x0C)
  | .atPlayG => some (.td 0x14)
  | .atPlayF => some (.td 0x24)
  | .dspFq => some (.td 0x00)
  | .dspByp => some (.td 0x40)
  | .ctRecstart k => some (.cd (controlWordFor 0#3 (gestWith k true)))
  | .ctPlaystart k => some (.cd (controlWordFor 0#3 (gestWith k false)))
  | .ctRecstop => some (.cd (controlWordFor 2#3 0#8))
  | .ctRecack => some (.cd (controlWordFor 3#3 0#8))
  | .ctPlaystop => some (.cd (controlWordFor 4#3 0#8))
  | .ctNone => some (.cd (controlWordFor 0#3 0#8))
  | .ctDir => some (.cd (controlWordFor 0#3 0#8))
  | .ctSpg => some (.cd (controlWordFor 0#3 0#8))
  | .ctMod => some (.cd (controlWordFor 0#3 0#8))
  | .ctRate => some (.cd (controlWordFor 0#3 0#8))
  | .ctCommit => none
  | .mapSr _ _ => none
  | .mapSw _ _ _ _ => none
  | .grStep _ => none

end Sys2Proof
end

