-- ==== Sys2Proof/Machine/State.lean ====
section
/-! DEFINITION. The machine's state: every register of 10_state.md, the three memories of 20_memory.md, and what R49
calls parameters or draws of a model's step relation; the reasons a step can stop; the state after reset. -/

namespace Sys2Proof.Machine

/-- A byte memory: (offset, byte) pairs, offsets strictly rising, no entry equal to `Config.unlistedByte`. -/
abbrev Memory := List Host.Cell

/-- What crosses a port of CLE (R6, R114): an entry of the model's trace. -/
inductive PortEvent where
  /-- `EmitOutput(v)` (R89) -/
  | dac (v : Sample)
  /-- `SampleInput()` returning `v` (R89) -/
  | adc (v : Sample)
  /-- `StoreRead(chip, base)` returning three bytes (R72) -/
  | storeRead (chip : Chip) (base : Nat) (y0 y1 y2 : Byte)
  /-- `StoreWrite(chip, base, y0, y1, y2)` (R72) -/
  | storeWrite (chip : Chip) (base : Nat) (y0 y1 y2 : Byte)
  /-- `NvRead(off)` returning `y` (R73) -/
  | nvRead (off : Nat) (y : Byte)
  /-- `NvWrite(off, y)` (R73) -/
  | nvWrite (off : Nat) (y : Byte)
  /-- The value of `HRD reg` on the HOST port (R290) -/
  | hostRead (reg : RegNumber) (value : Word24)
deriving DecidableEq, Repr

/-- The reasons a step faults: none. "CLE raises no exception, fault or trap" (R310). Nobody raises one; safe. -/
inductive Fault where
deriving DecidableEq, Repr

/-- The reasons a step is refused. -/
inductive Refusal where
  /-- Raised by an arm of `exec` whose instruction has no meaning yet; safe: the machine stops. -/
  | notModelled (mnemonic : String)
  /-- Raised by a packed transaction whose record base is outside 0 .. DEV_TOP - 2, which R87 and I4 leave
  unspecified ("refuse"); unreachable when NV satisfies R344; safe: the machine stops (log 7). -/
  | storageBaseOutOfRange
deriving DecidableEq, Repr

/-- The state of CLE and of what it is given from outside. -/
structure State where
  /-- `MODE` (R23) -/
  mode : Mode
  /-- `PHASE`: `true` is odd (R24) -/
  phase : Bool
  /-- `DIR`: `true` is reverse (R25) -/
  dir : Bool
  /-- `SLOT` (R26) -/
  slot : SlotId
  /-- `PCUR`, signed (R27) -/
  pcur : Cursor
  /-- `WCUR`, signed (R28) -/
  wcur : Cursor
  /-- `GADDR`, signed (R29) -/
  gaddr : Cursor
  /-- `GCNT` (R29) -/
  gcnt : Word24
  /-- `SPG` (R29) -/
  spg : Word24
  /-- `GRAIN_ACT` (R30) -/
  grainAct : Bool
  /-- `FREEZE_ACT` (R30) -/
  freezeAct : Bool
  /-- `ANCHOR`, signed (R30) -/
  anchor : Cursor
  /-- `END[s]` (R21) -/
  endAddr : PerSlot Word24
  /-- `RECORDED[s]` (R21) -/
  recorded : PerSlot Bool
  /-- `IN` (R31) -/
  inSample : Sample
  /-- `RBUF` (R31) -/
  rbuf : Sample
  /-- `D0` (R31) -/
  d0 : Sample
  /-- `D1` (R31) -/
  d1 : Sample
  /-- `MIX`, signed (R31) -/
  mix : Mix
  /-- `OUT` (R31) -/
  outSample : Sample
  /-- `TOUT` (R39) -/
  tout : TickOutcome
  /-- `LP_BUF0`, signed (R32) -/
  lpBuf0 : Accum
  /-- `LP_BUF1`, signed (R32) -/
  lpBuf1 : Accum
  /-- `HP_BUF0`, signed (R32) -/
  hpBuf0 : Accum
  /-- `HP_BUF1`, signed (R32) -/
  hpBuf1 : Accum
  /-- `CUT_LP` (R33) -/
  cutLp : BitVec 8
  /-- `FB_LP` (R33) -/
  fbLp : BitVec 16
  /-- `CUT_HP` (R33) -/
  cutHp : BitVec 8
  /-- `FB_HP` (R33) -/
  fbHp : BitVec 16
  /-- `RATE` (R33) -/
  rate : BitVec 16
  /-- `BITRES` (R33) -/
  bitres : BitVec 4
  /-- `GRAIN_SIZE` (R33) -/
  grainSize : BitVec 16
  /-- `STRETCH` (R33) -/
  stretch : BitVec 16
  /-- `GEST` (R34) -/
  gest : BitVec 8
  /-- `MS_NOW` (R35) -/
  msNow : Word24
  /-- `T_REC_START` (R35) -/
  tRecStart : Word24
  /-- `T_REC_END` (R35) -/
  tRecEnd : Word24
  /-- `REC_RATE` (R36) -/
  recRate : BitVec 16
  /-- `TICK_RATE`, also the level of that port (R36) -/
  tickRate : BitVec 16
  /-- `CTRL.TICK_EN` (R37) -/
  tickEn : Bool
  /-- `CTRL.OVR` (R37) -/
  ovr : Bool
  /-- `CTRL.TICK_PEND` (R37) -/
  tickPend : Bool
  /-- `STORE[A]` (R70, R71) -/
  storeA : Memory
  /-- `STORE[B]` (R70, R71) -/
  storeB : Memory
  /-- `NV` (R70, R73) -/
  nv : Memory
  /-- The model's own: the ADC level `AIN` of the latest `ATICK` (R49, R294, log 3) -/
  ain : Sample
  /-- The model's own: the samples `FREE_SPACE_OK` will give, one a control tick (R49, R155, log 4) -/
  freeSpace : List Bool
  /-- The model's own: the stimulus words not yet taken, next first (R104, log 1) -/
  stim : List StimWord
  /-- The model's own: what crossed the ports, oldest first (R114, log 2) -/
  trace : List PortEvent
deriving DecidableEq, Repr

/-- The machine right after reset: the table of R45 over memories that read 0 everywhere, so that `END` and
`RECORDED` load as 0 (R47; DESIGN CHOICE for the contents, logs 5 and 6), with no event and no stimulus yet. -/
def State.reset : State where
  mode := .off
  phase := false
  dir := false
  slot := .slot0
  pcur := 0#25
  wcur := 0#25
  gaddr := 0#25
  gcnt := 0#24
  spg := 1#24
  grainAct := false
  freezeAct := false
  anchor := 0#25
  endAddr := ⟨0#24, 0#24, 0#24, 0#24⟩
  recorded := ⟨false, false, false, false⟩
  inSample := 2048#12
  rbuf := 2048#12
  d0 := 2048#12
  d1 := 2048#12
  mix := 0#12
  outSample := 2048#12
  tout := .continued
  lpBuf0 := 0#24
  lpBuf1 := 0#24
  hpBuf0 := 0#24
  hpBuf1 := 0#24
  cutLp := 255#8
  fbLp := 0#16
  cutHp := 0#8
  fbHp := 0#16
  rate := Config.rateReset
  bitres := 12#4
  grainSize := 1#16
  stretch := 256#16
  gest := 0#8
  msNow := 0#24
  tRecStart := 0#24
  tRecEnd := 0#24
  recRate := Config.rateReset
  tickRate := Config.rateReset
  tickEn := false
  ovr := false
  tickPend := false
  storeA := []
  storeB := []
  nv := []
  ain := 2048#12
  freeSpace := []
  stim := []
  trace := []

end Sys2Proof.Machine
end

