-- ==== Sys2Proof/Machine/Flags.lean ====
section
/-! DEFINITION. The packed views of one- and two-bit state: `STATUS` (R38), `CTRL` (R37), the fields of the tick and
control dispatch words (R108, R109) with the side conditions of R109, and the host's read values (R41, R290). CLE
has no arithmetic condition flags. -/

namespace Sys2Proof.Machine

/-- `STATUS`: `RECORDED[3..0] ‖ TOUT ‖ FREEZE_ACT ‖ GRAIN_ACT ‖ SLOT ‖ DIR ‖ PHASE`, zero above (R38). -/
def statusWord (s : State) : Word24 :=
  (0#12 ++ BitVec.ofBool s.recorded.slot3 ++ BitVec.ofBool s.recorded.slot2
    ++ BitVec.ofBool s.recorded.slot1 ++ BitVec.ofBool s.recorded.slot0
    ++ outcomeCode s.tout ++ BitVec.ofBool s.freezeAct ++ BitVec.ofBool s.grainAct
    ++ slotBits s.slot ++ BitVec.ofBool s.dir ++ BitVec.ofBool s.phase : BitVec 24)

/-- `CTRL` as read: `TICK_PEND ‖ OVR ‖ TICK_EN` in bits 2:0 (R37, R290). -/
def ctrlWord (s : State) : Word24 :=
  (0#21 ++ BitVec.ofBool s.tickPend ++ BitVec.ofBool s.ovr ++ BitVec.ofBool s.tickEn : BitVec 24)

/-- The fields of `TD` as they stand (R108). -/
def tickFields (s : State) : TickFields where
  bypass := gestBypass s.gest
  freezeAct := s.freezeAct
  grainAct := s.grainAct
  phase := s.phase
  mode := s.mode

/-- The tick dispatch word `TD` as it stands (R108). -/
def tickWord (s : State) : TickWord := tickWordOf (tickFields s)

/-- The fields of `CD` as they stand (R109). -/
def controlFields (s : State) : ControlFields where
  slot := s.slot
  mode := s.mode
  gest := s.gest

/-- The control dispatch word `CD` as it stands (R109). -/
def controlWord (s : State) : ControlWord := controlWordOf (controlFields s)

/-- This control tick's sample of `FREE_SPACE_OK`: the next one given, `true` by default (R155, log 4). -/
def freeSpaceNow (s : State) : Bool := s.freeSpace.headD Config.freeSpaceDefault

/-- The side conditions of R109 as they stand. -/
def sideConds (s : State) : SideConds where
  gapElapsed := decide (elapsed s.msNow s.tRecEnd ≥ Config.debounceMs)
  lengthElapsed := decide (elapsed s.msNow s.tRecStart ≥ Config.debounceMs)
  freeSpace := freeSpaceNow s
  recorded := s.recorded

/-- The read value of a mapped register: unsigned registers zero-extended, of a signed register the low 24 bits of
its two's-complement value, `CMD` zero (R41, R290). -/
def hostRegValue (s : State) : HostReg → Word24
  | .ctrl => ctrlWord s
  | .gest => s.gest.setWidth 24
  | .msNow => s.msNow
  | .rate => s.rate.setWidth 24
  | .bitres => s.bitres.setWidth 24
  | .cutLp => s.cutLp.setWidth 24
  | .fbLp => s.fbLp.setWidth 24
  | .cutHp => s.cutHp.setWidth 24
  | .fbHp => s.fbHp.setWidth 24
  | .grainSize => s.grainSize.setWidth 24
  | .stretch => s.stretch.setWidth 24
  | .cmd => 0#24
  | .mode => (modeCode s.mode).setWidth 24
  | .status => statusWord s
  | .pcur => s.pcur.setWidth 24
  | .wcur => s.wcur.setWidth 24
  | .gaddr => s.gaddr.setWidth 24
  | .gcnt => s.gcnt
  | .spg => s.spg
  | .anchor => s.anchor.setWidth 24
  | .end0 => s.endAddr.slot0
  | .end1 => s.endAddr.slot1
  | .end2 => s.endAddr.slot2
  | .end3 => s.endAddr.slot3
  | .recRate => s.recRate.setWidth 24
  | .tickRate => s.tickRate.setWidth 24
  | .out => s.outSample.setWidth 24
  | .mix => s.mix.signExtend 24
  | .lpBuf0 => s.lpBuf0
  | .lpBuf1 => s.lpBuf1
  | .hpBuf0 => s.hpBuf0
  | .hpBuf1 => s.hpBuf1
  | .inp => s.inSample.setWidth 24
  | .rbuf => s.rbuf.setWidth 24
  | .d0 => s.d0.setWidth 24
  | .d1 => s.d1.setWidth 24
  | .tRecStart => s.tRecStart
  | .tRecEnd => s.tRecEnd

/-- The value `HRD reg` returns: 0 for an unmapped number (R290, R297). -/
def hostReadValue (s : State) (reg : RegNumber) : Word24 :=
  match hostRegOfNumber reg with
  | some r => hostRegValue s r
  | none => 0#24

end Sys2Proof.Machine
end

