-- ==== Sys2Proof/Machine/Ops.lean ====
section
/-! DEFINITION. The named operations over memory, ports and registers that every meaning is written with: byte
memories in canonical form, the primitives of R72, R73 and R89, the cursors and slot table read as integers, and the
shared parts of taking the one interrupt CLE has (R313, R315, R316). -/

namespace Sys2Proof.Machine

/-! ### Byte memories -/

/-- The byte at an offset; an unlisted offset reads as `Config.unlistedByte`. -/
def memRead : Memory → Nat → Byte
  | [], _ => Config.unlistedByte
  | (k, v) :: rest, a => if k = a then v else memRead rest a

/-- The memory with one byte written, in canonical form again. -/
def memWrite : Memory → Nat → Byte → Memory
  | [], a, v => if v = Config.unlistedByte then [] else [(a, v)]
  | (k, w) :: rest, a, v =>
    if a < k then (if v = Config.unlistedByte then (k, w) :: rest else (a, v) :: (k, w) :: rest)
    else if a = k then (if v = Config.unlistedByte then rest else (k, v) :: rest)
    else (k, w) :: memWrite rest a v

/-- Canonical from offset `lo`: offsets rising, below `top`, no entry equal to the unlisted byte. -/
def memWfFrom (top lo : Nat) : Memory → Bool
  | [] => true
  | (k, v) :: rest =>
    decide (lo ≤ k) && decide (k < top) && !(v == Config.unlistedByte) && memWfFrom top (k + 1) rest

/-- The canonical form of a memory whose offsets are below `top`. -/
def memWf (top : Nat) (m : Memory) : Bool := memWfFrom top 0 m

/-! ### Ports -/

/-- Record what crosses a port (R114). -/
def logEvent (s : State) (e : PortEvent) : State := { s with trace := s.trace ++ [e] }

/-- `EmitOutput(OUT)` (R89, R251). -/
def emitOutput (s : State) : State := logEvent s (.dac s.outSample)

/-- `IN <- SampleInput()`, which returns the ADC level `AIN` (R89, R250). -/
def sampleInput (s : State) : State := logEvent { s with inSample := s.ain } (.adc s.ain)

/-! ### The storage devices and the boundary store -/

/-- The bytes of a device. -/
def deviceOf (s : State) : Chip → Memory
  | .a => s.storeA
  | .b => s.storeB

/-- The state with a device's bytes replaced. -/
def withDevice (s : State) (c : Chip) (m : Memory) : State :=
  match c with
  | .a => { s with storeA := m }
  | .b => { s with storeB := m }

/-- The three bytes at a record base. -/
def recordAt (m : Memory) (b : Nat) : Packed := ⟨memRead m b, memRead m (b + 1), memRead m (b + 2)⟩

/-- The memory with the three bytes of a record written at a base, in the order of R72. -/
def writeRecord (m : Memory) (b : Nat) (p : Packed) : Memory :=
  memWrite (memWrite (memWrite m b p.y0) (b + 1) p.y1) (b + 2) p.y2

/-- `StoreRead(chip, b)`: defined for a base in 0 .. DEV_TOP - 2 only (R72, R87). -/
def storeRead (s : State) (c : Chip) (b : Int) : Option (Packed × State) :=
  if baseInRange b then
    let p := recordAt (deviceOf s c) b.toNat
    some (p, logEvent s (.storeRead c b.toNat p.y0 p.y1 p.y2))
  else none

/-- `StoreWrite(chip, b, y0, y1, y2)`: defined for a base in 0 .. DEV_TOP - 2 only (R72, R87). -/
def storeWrite (s : State) (c : Chip) (b : Int) (p : Packed) : Option State :=
  if baseInRange b then
    some (logEvent (withDevice s c (writeRecord (deviceOf s c) b.toNat p)) (.storeWrite c b.toNat p.y0 p.y1 p.y2))
  else none

/-- The byte `NvRead(off)` returns (R73). -/
def nvByte (s : State) (off : Nat) : Byte := memRead s.nv off

/-- `NvRead(off)`, always defined and without side effect: the read crosses the port (R73, R78, R88). -/
def nvRead (s : State) (off : Nat) : State := logEvent s (.nvRead off (nvByte s off))

/-- `NvWrite(off, y)`, always defined (R73, R88). -/
def nvWrite (s : State) (off : Nat) (y : Byte) : State :=
  logEvent { s with nv := memWrite s.nv off y } (.nvWrite off y)

/-! ### Cursors and the slot table as integers (R8) -/

/-- Narrow an integer to a cursor register, by the field truncation of a register write (R8, R27). -/
def toCursor (x : Int) : Cursor := BitVec.ofInt Config.curBits x

/-- `END[s]` as a number. -/
def endOf (s : State) (k : SlotId) : Int := ((slotGet s.endAddr k).toNat : Int)

/-- `start(s)` in this state (R173). -/
def startOf (s : State) (k : SlotId) : Int := startOffset k s.dir (endOf s k)

/-- `wrap(s, c)` in this state (R175). -/
def wrapOf (s : State) (k : SlotId) (c : Int) : Int := wrapCursor k s.dir (endOf s k) c

/-! ### The interrupt (R312 to R316) -/

/-- A timer event that finds ticks disabled is held; one that finds another held is lost and sets `OVR` (R313). -/
def holdTimerEvent (s : State) : State :=
  { s with ovr := s.ovr || s.tickPend, tickPend := true }

/-- Interrupt entry: `TOUT <- 0`, and nothing else is written (R315). -/
def beginTick (s : State) : State := { s with tout := .continued }

/-- The end of the tick, S6: `PHASE <- 1 - PHASE`; there is no other return (R256, R316). -/
def endTick (s : State) : State := { s with phase := !s.phase }

/-! ### Outcomes -/

/-- The outcome of an operation that is defined for in-range record bases only: refused where it is not (R87, I4). -/
def outcomeOf : Option State → Host.Outcome State Fault Refusal
  | some t => .next t
  | none => .refused .storageBaseOutOfRange

end Sys2Proof.Machine
end

