-- ==== Sys2Proof/Machine/Dsp.lean ====
section
/-! DEFINITION. The cascaded state-variable filter and bit-depth quantizer (43_dsp_filter_quantizer.md R221 to R228). -/

namespace Sys2Proof.Machine

/-- What one update of a filter stage gives: its high-pass output and its two new accumulators (R221). -/
structure SvfResult where
  hp : Int
  buf0 : Int
  buf1 : Int
deriving DecidableEq, Repr

/-- `SVF(x, CUT, FB, BUF0, BUF1)` on unbounded integers; the low-pass output is the new `BUF1`. `/` on `Int` by a
positive number rounds toward minus infinity, the `floor` of R8 (R221). -/
def svf (x : Int) (cut fb : Nat) (buf0 buf1 : Int) : SvfResult :=
  let hp := x - buf0
  let bp := buf0 - buf1
  let fbt := fb * bp / Config.fracScale
  let buf0' := wrap24 (buf0 + cut * (hp + fbt) / Config.fracScale)
  let buf1' := wrap24 (buf1 + cut * (buf0' - buf1) / Config.fracScale)
  ⟨hp, buf0', buf1'⟩

/-- The low-pass stage's update in this state (R222). -/
def lowPass (s : State) : SvfResult :=
  svf s.mix.toInt s.cutLp.toNat s.fbLp.toNat s.lpBuf0.toInt s.lpBuf1.toInt

/-- The high-pass stage's update in this state: its input is the low-pass output (R222). -/
def highPass (s : State) : SvfResult :=
  svf (lowPass s).buf1 s.cutHp.toNat s.fbHp.toNat s.hpBuf0.toInt s.hpBuf1.toInt

/-- Re-centre and mask: `(clamp12(y) + 2048) & mask(r)` (R223, R224). -/
def quantize (y : Int) (r : Nat) : Sample :=
  BitVec.ofInt 12 (clamp12 y + Config.dcOffset) &&& bitMask r

/-- The filter chain: both stages, re-centre, mask (R227). -/
def filterChain (s : State) : State :=
  { s with
    lpBuf0 := BitVec.ofInt 24 (lowPass s).buf0
    lpBuf1 := BitVec.ofInt 24 (lowPass s).buf1
    hpBuf0 := BitVec.ofInt 24 (highPass s).buf0
    hpBuf1 := BitVec.ofInt 24 (highPass s).buf1
    outSample := quantize (highPass s).hp s.bitres.toNat }

/-- The bypass: `OUT <- MIX + 2048`, nothing else written (R225, R228). -/
def filterBypass (s : State) : State :=
  { s with outSample := BitVec.ofInt 12 (s.mix.toInt + Config.dcOffset) }

/-- Step S5, selected by `GEST.bypass` as it stands (R225, R250). -/
def dspStep (s : State) : State := if gestBypass s.gest then filterBypass s else filterChain s

/-- `DSP.FQ` (R227). -/
def execDspFq (s : State) : Host.Outcome State Fault Refusal := .next (filterChain s)

/-- `DSP.BYP` (R228). -/
def execDspByp (s : State) : Host.Outcome State Fault Refusal := .next (filterBypass s)

end Sys2Proof.Machine
end

