-- ==== Sys2Proof/Machine/Mapper.lean ====
section
/-! DEFINITION. The packed-sample storage address mapper's two transactions (41_storage_mapper.md R180, R181). -/

namespace Sys2Proof.Machine

/-- `MAP.SR(s, c)`: `unpack(StoreRead(chip(s), base(s, c)))` (R180). -/
def mappedRead (s : State) (k : SlotId) (c : Int) : Option ((Sample × Sample) × State) :=
  (storeRead s (chipOf k) (recordBase k c)).map fun r => (unpack r.1, r.2)

/-- `MAP.SW(s, c, a, b)`: `StoreWrite(chip(s), base(s, c), pack(a, b))` (R181). -/
def mappedWrite (s : State) (k : SlotId) (c : Int) (a b : Sample) : Option State :=
  storeWrite s (chipOf k) (recordBase k c) (pack a b)

/-- `MAP.SR` by itself: one `StoreRead`; it writes no register, the caller assigns the result (R180). -/
def execMapSr (k : SlotId) (c : Cursor) (s : State) : Host.Outcome State Fault Refusal :=
  outcomeOf ((mappedRead s k c.toInt).map Prod.snd)

/-- `MAP.SW` by itself (R181). -/
def execMapSw (k : SlotId) (c : Cursor) (a b : Sample) (s : State) : Host.Outcome State Fault Refusal :=
  outcomeOf (mappedWrite s k c.toInt a b)

end Sys2Proof.Machine
end

