-- ==== Sys2Proof/Machine/Grain.lean ====
section
/-! DEFINITION. The grain-freeze sub-loop window controller (42_grain_freeze.md R201 to R203). -/

namespace Sys2Proof.Machine

/-- `gpos(s)` in this state (R201). -/
def grainPosOf (s : State) (k : SlotId) : Int :=
  grainPos k s.dir (endOf s k) s.gaddr.toInt s.gcnt.toNat

/-- `gnext(s)` in this state: `ANCHOR` is the wrap target where `FREEZE_ACT = 1` (R202). -/
def grainNextOf (s : State) (k : SlotId) : Int :=
  grainNext k s.dir (endOf s k) s.gaddr.toInt s.grainSize.toNat
    (if s.freezeAct then some s.anchor.toInt else none)

/-- The end of a grain step: count one transaction, and at `SPG` or more close the window (R203). -/
def countGrain (s : State) (k : SlotId) : State :=
  let t := { s with gcnt := s.gcnt + 1#24 }
  if t.spg ≤ t.gcnt then { t with gcnt := 0#24, gaddr := toCursor (grainNextOf t k) } else t

/-- `GR.STEP(s)` (R203). -/
def grainStep (s : State) (k : SlotId) : Option State :=
  (mappedRead s k (grainPosOf s k)).map fun r =>
    let t := { r.2 with d0 := r.1.1, d1 := r.1.2, mix := BitVec.ofInt 12 (signal r.1.1) }
    { countGrain t k with tout := .substituted }

/-- `GR.STEP` by itself (R203). -/
def execGrStep (k : SlotId) (s : State) : Host.Outcome State Fault Refusal :=
  outcomeOf (grainStep s k)

end Sys2Proof.Machine
end

