-- ==== Sys2Proof/Machine/AudioTick.lean ====
section
/-! DEFINITION. The audio tick (44_audio_tick.md): one operation per dispatch row (R257 to R265), the tick that
dispatches them, and the same tick as the six ordered steps of R250. -/

namespace Sys2Proof.Machine

/-! ### Shared parts -/

/-- `MIX <- IN - 2048` (R252). -/
def mixInput (s : State) : State := { s with mix := BitVec.ofInt 12 (signal s.inSample) }

/-- `MIX <- clamp12((d - 2048) + (IN - 2048))` for a stored sample `d` (R266). -/
def mixStored (d : Sample) (s : State) : State :=
  { s with mix := BitVec.ofInt 12 (clamp12 (signal d + signal s.inSample)) }

/-- Steps S5 and S6: the DSP step, then the phase toggle (R255, R256). -/
def finishTick (s : State) : State := endTick (dspStep s)

/-- The tick where input goes to the mix: emit, sample, mix (R252, R258). -/
def passInput (s : State) : State := mixInput (sampleInput (emitOutput (beginTick s)))

/-- `PCUR <- wrap(SLOT, PCUR + eff(SLOT))` (R262). -/
def advancePlay (s : State) : State :=
  { s with pcur := toCursor (wrapOf s s.slot (s.pcur.toInt + effStep s.slot s.dir)) }

/-- `WCUR <- WCUR + σ(SLOT) * 3` (R253, R260). -/
def advanceWrite (s : State) : State :=
  { s with wcur := toCursor (s.wcur.toInt + sigma s.slot * Config.stride) }

/-- The transition RECORD to RECORD_DONE, on the advanced write cursor (R146, R182, R260). -/
def checkOverflow (s : State) : State :=
  if overflow s.slot s.wcur.toInt then { s with mode := .recordDone, tout := .terminated } else s

/-- The packed write of an odd record tick, the advance and the capacity check (R253, R260). -/
def recordPair (s : State) : Option State :=
  (mappedWrite s s.slot s.wcur.toInt s.rbuf s.inSample).map fun t => checkOverflow (advanceWrite t)

/-- `(D0, D1) <- MAP.SR(SLOT, PCUR)`, then `IN <- SampleInput()` (R254). -/
def readAndSample (s : State) : Option State :=
  (mappedRead s s.slot s.pcur.toInt).map fun r => sampleInput { r.2 with d0 := r.1.1, d1 := r.1.2 }

/-- Steps S1 to S4 of an even playback tick under a modifier: the normal read, superseded by a grain step (R264). -/
def playSubstituted (s : State) : Option State :=
  (readAndSample (emitOutput (beginTick s))).bind fun t => grainStep t t.slot

/-! ### The operations (R257 to R265) -/

/-- `AT.OFF`: identical to `AT.PASS` (R257). -/
def execAtOff (s : State) : Host.Outcome State Fault Refusal := .next (finishTick (passInput s))

/-- `AT.PASS` (R258). -/
def execAtPass (s : State) : Host.Outcome State Fault Refusal := .next (finishTick (passInput s))

/-- `AT.REC.E`: `RBUF <- IN` (R259). -/
def execAtRecE (s : State) : Host.Outcome State Fault Refusal :=
  let t := passInput s
  .next (finishTick { t with rbuf := t.inSample })

/-- `AT.REC.O` (R260). -/
def execAtRecO (s : State) : Host.Outcome State Fault Refusal :=
  outcomeOf ((recordPair (passInput s)).map finishTick)

/-- `AT.DONE`: no emit, no sample, no storage access (R261). -/
def execAtDone (s : State) : Host.Outcome State Fault Refusal := .next (finishTick (beginTick s))

/-- `AT.PLAY.E` (R262). -/
def execAtPlayE (s : State) : Host.Outcome State Fault Refusal :=
  outcomeOf ((readAndSample (emitOutput (beginTick s))).map fun t =>
    finishTick (advancePlay (mixStored t.d0 t)))

/-- `AT.PLAY.O` (R263). -/
def execAtPlayO (s : State) : Host.Outcome State Fault Refusal :=
  let t := sampleInput (emitOutput (beginTick s))
  .next (finishTick (mixStored t.d1 t))

/-- `AT.PLAY.G` (R264). -/
def execAtPlayG (s : State) : Host.Outcome State Fault Refusal :=
  outcomeOf ((playSubstituted s).map finishTick)

/-- `AT.PLAY.F`: identical to `AT.PLAY.G`; `gnext` re-seeds at `ANCHOR` while `FREEZE_ACT = 1` (R265, R202). -/
def execAtPlayF (s : State) : Host.Outcome State Fault Refusal :=
  outcomeOf ((playSubstituted s).map finishTick)

/-- One audio tick by its dispatched operation. -/
def runTickOp (op : TickOp) (s : State) : Host.Outcome State Fault Refusal :=
  match op with
  | .off => execAtOff s
  | .pass => execAtPass s
  | .recEven => execAtRecE s
  | .recOdd => execAtRecO s
  | .done => execAtDone s
  | .playEven => execAtPlayE s
  | .playOdd => execAtPlayO s
  | .playGrain => execAtPlayG s
  | .playFreeze => execAtPlayF s

/-- `AudioTick(AIN)`: the operation `TD` selects, as it stands at the start of the tick (R108, R250). -/
def audioTick (s : State) : Host.Outcome State Fault Refusal := runTickOp (selectTick (tickFields s)) s

/-- A timer event: the audio tick now, or held (R294, R313). -/
def timerEvent (s : State) : Host.Outcome State Fault Refusal :=
  if s.tickEn then audioTick s else .next (holdTimerEvent s)

/-! ### The tick as six ordered steps (R250) -/

/-- S1 (R251). -/
def stepS1 (s : State) : State := if s.mode = .recordDone then s else emitOutput s

/-- S2 (R252). -/
def stepS2 (s : State) : State :=
  if s.mode = .playback ∨ s.mode = .recordDone then s else mixInput (sampleInput s)

/-- S3 (R253). -/
def stepS3 (s : State) : Option State :=
  if s.mode = .record then
    if s.phase = false then some { s with rbuf := s.inSample } else recordPair s
  else some s

/-- S4 (R254). -/
def stepS4 (s : State) : Option State :=
  if s.mode = .playback then
    if s.phase = false then
      (readAndSample s).bind fun t =>
        if t.grainAct = true ∨ t.freezeAct = true then grainStep t t.slot
        else some (advancePlay (mixStored t.d0 t))
    else
      let t := sampleInput s
      some (mixStored t.d1 t)
  else some s

/-- `AudioTick` in the step form of R250, which governs where the two forms differ. -/
def audioTickSteps (s : State) : Host.Outcome State Fault Refusal :=
  outcomeOf (((stepS3 (stepS2 (stepS1 (beginTick s)))).bind stepS4).map fun t => endTick (dspStep t))

end Sys2Proof.Machine
end

