-- ==== Sys2Proof/Machine/ControlTick.lean ====
section
/-! DEFINITION. The control tick (40_mode_control.md): one operation per row (R141 to R153) and the tick that runs
them in the order K1 to K5 (R140). -/

namespace Sys2Proof.Machine

/-- `CT.DIR`: `DIR <- rev` (R141). -/
def updateDir (s : State) : State := { s with dir := gestRev s.gest }

/-- `CT.SPG`: `SPG <- SPGcalc(STRETCH, GRAIN_SIZE, RATE, REC_RATE)` (R142). -/
def updateSpg (s : State) : State :=
  { s with spg := BitVec.ofNat 24 (spgCalc s.stretch.toNat s.grainSize.toNat s.rate.toNat s.recRate.toNat) }

/-- `CT.RECSTART(k)` (R144). -/
def startRecord (k : SlotId) (s : State) : State :=
  { s with
    slot := k
    wcur := toCursor (origin k)
    tRecStart := s.msNow
    recRate := s.rate
    tickRate := s.rate
    mode := .record }

/-- `CT.PLAYSTART(k)` (R148). -/
def startPlay (k : SlotId) (s : State) : State :=
  { s with
    slot := k
    pcur := toCursor (startOf s k)
    gaddr := toCursor (startOf s k)
    gcnt := 0#24
    mode := .playback }

/-- Persist `END[k]`: three bytes, most significant first (R75, R102, R151). -/
def persistEnd (k : SlotId) (s : State) : State :=
  let e := slotGet s.endAddr k
  nvWrite (nvWrite (nvWrite s (3 * slotNumber k) (e.extractLsb' 16 8))
    (3 * slotNumber k + 1) (e.extractLsb' 8 8)) (3 * slotNumber k + 2) (e.extractLsb' 0 8)

/-- `CT.COMMIT` (R151). `END` takes the low 24 bits of `WCUR`, by the field truncation of R8. -/
def commit (s : State) : State :=
  let t := { s with
    endAddr := slotSet s.endAddr s.slot (s.wcur.setWidth 24)
    recorded := slotSet s.recorded s.slot true }
  { persistEnd s.slot t with tRecEnd := s.msNow, mode := .passthrough }

/-- `CT.PLAYSTOP`: `MODE <- PASSTHROUGH` (R149). -/
def stopPlay (s : State) : State := { s with mode := .passthrough }

/-- The new `FREEZE_ACT`: PLAYBACK, `rec`, no `rev`, no `grain` (R152). -/
def freezeWanted (s : State) : Bool :=
  decide (s.mode = .playback) && gestRec s.gest && !gestRev s.gest && !gestGrain s.gest

/-- Arming freeze captures the anchor and restarts the grain window at `PCUR` (R152). -/
def armFreeze (s : State) : State :=
  if freezeWanted s = true ∧ s.freezeAct = false then
    { s with anchor := s.pcur, gaddr := s.pcur, gcnt := 0#24 }
  else s

/-- `CT.MOD` (R152). -/
def updateModifiers (s : State) : State :=
  { armFreeze s with
    grainAct := decide (s.mode = .playback) && gestGrain s.gest
    freezeAct := freezeWanted s }

/-- `CT.RATE`: in PASSTHROUGH and PLAYBACK `TICK_RATE <- RATE` (R153). -/
def updateRate (s : State) : State :=
  if s.mode = .passthrough ∨ s.mode = .playback then { s with tickRate := s.rate } else s

/-- The effect of a transition of step K3 (R143). -/
def runTransition (tr : Transition) (s : State) : State :=
  match tr with
  | .recStart k => startRecord k s
  | .playStart k => startPlay k s
  | .recStop => commit s
  | .recAck => commit s
  | .playStop => stopPlay s
  | .none => s

/-- Step K3: the transition `CD` and the side conditions select, `FREE_SPACE_OK` being sampled once (R143, R155). -/
def stepK3 (s : State) : State :=
  { runTransition (selectTransition (sideConds s) (controlFields s)) s with freeSpace := s.freeSpace.tail }

/-- `ControlTick()`: K1 to K5 in order, as one operation (R140). -/
def controlTick (s : State) : State :=
  updateRate (updateModifiers (stepK3 (updateSpg (updateDir s))))

/-! ### The rows -/

/-- `CT.DIR` (R141). -/
def execCtDir (s : State) : Host.Outcome State Fault Refusal := .next (updateDir s)

/-- `CT.SPG` (R142). -/
def execCtSpg (s : State) : Host.Outcome State Fault Refusal := .next (updateSpg s)

/-- `CT.RECSTART(k)` (R144). -/
def execCtRecstart (k : SlotId) (s : State) : Host.Outcome State Fault Refusal := .next (startRecord k s)

/-- `CT.PLAYSTART(k)` (R148). -/
def execCtPlaystart (k : SlotId) (s : State) : Host.Outcome State Fault Refusal := .next (startPlay k s)

/-- `CT.RECSTOP`: `CT.COMMIT` (R145). -/
def execCtRecstop (s : State) : Host.Outcome State Fault Refusal := .next (commit s)

/-- `CT.RECACK`: `CT.COMMIT` (R147). -/
def execCtRecack (s : State) : Host.Outcome State Fault Refusal := .next (commit s)

/-- `CT.PLAYSTOP` (R149). -/
def execCtPlaystop (s : State) : Host.Outcome State Fault Refusal := .next (stopPlay s)

/-- `CT.NONE`: nothing is written (R150). -/
def execCtNone (s : State) : Host.Outcome State Fault Refusal := .next s

/-- `CT.MOD` (R152). -/
def execCtMod (s : State) : Host.Outcome State Fault Refusal := .next (updateModifiers s)

/-- `CT.RATE` (R153). -/
def execCtRate (s : State) : Host.Outcome State Fault Refusal := .next (updateRate s)

/-- `CT.COMMIT` (R151). -/
def execCtCommit (s : State) : Host.Outcome State Fault Refusal := .next (commit s)

end Sys2Proof.Machine
end

