-- ==== Sys2Proof/Machine/HostPort.lean ====
section
/-! DEFINITION. The stimulus words: host transactions and external events (45_host_port.md R290 to R297), and the
reset sequence (70_reset_and_hazards.md R340). -/

namespace Sys2Proof.Machine

/-! ### Host transactions -/

/-- `HRD reg`: the read value on the HOST port; no register changes (R290, R297). -/
def execHrd (reg : RegNumber) (s : State) : Host.Outcome State Fault Refusal :=
  .next (logEvent s (.hostRead reg (hostReadValue s reg)))

/-- A write to `CTRL`: `OVR` cleared if asked, `TICK_EN` set, and with ticks enabled a pending one delivered at once,
inside the write (R296, R313). -/
def writeCtrl (en clr : Bool) (s : State) : Host.Outcome State Fault Refusal :=
  let t := { s with ovr := s.ovr && !clr, tickEn := en }
  if t.tickEn = true ∧ t.tickPend = true then audioTick { t with tickPend := false } else .next t

/-- A write to a parameter, gesture or time register, legalised; one to a read-only register is ignored
(R291, R292, R297). -/
def writeParam (r : HostReg) (d : Word24) (s : State) : State :=
  match r with
  | .gest => { s with gest := d.extractLsb' 0 8 }
  | .msNow => { s with msNow := d }
  | .rate => { s with rate := legalAtLeastOne d }
  | .bitres => { s with bitres := legalBitres d }
  | .cutLp => { s with cutLp := d.extractLsb' 0 8 }
  | .fbLp => { s with fbLp := d.extractLsb' 0 16 }
  | .cutHp => { s with cutHp := d.extractLsb' 0 8 }
  | .fbHp => { s with fbHp := d.extractLsb' 0 16 }
  | .grainSize => { s with grainSize := legalAtLeastOne d }
  | .stretch => { s with stretch := d.extractLsb' 0 16 }
  | _ => s

/-- `HWR reg, data`: `CTRL` and `CMD` have their own effects, every other mapped register is written legalised, an
unmapped number is ignored (R291, R292, R293, R296, R297). -/
def execHwr (reg : RegNumber) (data : Word24) (s : State) : Host.Outcome State Fault Refusal :=
  match hostRegOfNumber reg with
  | some .ctrl => writeCtrl (data.getLsbD 0) (data.getLsbD 1) s
  | some .cmd => .next (if data.getLsbD 0 then controlTick s else s)
  | some r => .next (writeParam r data s)
  | none => .next s

/-- `CTICK` = `HWR CMD, 1`: one control tick, whatever `TICK_EN` (R293). -/
def execCtick (s : State) : Host.Outcome State Fault Refusal := .next (controlTick s)

/-- `HWR CTRL, data` (R296). -/
def execHwrCtrl (en clr : Bool) (s : State) : Host.Outcome State Fault Refusal := writeCtrl en clr s

/-! ### External events -/

/-- `ATICK ain`: the ADC level is set, then one timer event is raised (R294). -/
def execAtick (ain : Sample) (s : State) : Host.Outcome State Fault Refusal := timerEvent { s with ain := ain }

/-- Every register of CLE at its reset value; memories and what stands outside CLE unchanged (R45, R46, R340 step 1). -/
def clearRegisters (s : State) : State :=
  { State.reset with
    storeA := s.storeA
    storeB := s.storeB
    nv := s.nv
    ain := s.ain
    freeSpace := s.freeSpace
    stim := s.stim
    trace := s.trace }

/-- The boundary `NV` holds for a slot: `b0 ‖ b1 ‖ b2`, `b0` most significant (R75, R102, R341). -/
def storedEnd (s : State) (k : SlotId) : Word24 :=
  nvByte s (3 * slotNumber k) ++ nvByte s (3 * slotNumber k + 1) ++ nvByte s (3 * slotNumber k + 2)

/-- Load one slot's boundary from `NV` by three reads, and `RECORDED` from it (R47, R341). -/
def loadBoundary (k : SlotId) (s : State) : State :=
  let t := nvRead (nvRead (nvRead s (3 * slotNumber k)) (3 * slotNumber k + 1)) (3 * slotNumber k + 2)
  { t with
    endAddr := slotSet t.endAddr k (storedEnd s k)
    recorded := slotSet t.recorded k (!(storedEnd s k == 0#24)) }

/-- The reset sequence (R340): registers, then the four boundaries in the order 0, 1, 2, 3. -/
def resetSequence (s : State) : State :=
  loadBoundary .slot3 (loadBoundary .slot2 (loadBoundary .slot1 (loadBoundary .slot0 (clearRegisters s))))

/-- `RESET` (R295). -/
def execReset (s : State) : Host.Outcome State Fault Refusal := .next (resetSequence s)

end Sys2Proof.Machine
end

