-- ==== Sys2Proof/Machine/Dispatch.lean ====
section
/-! DEFINITION. One arm per row of the opcode table, each one direct call of its meaning. -/

namespace Sys2Proof.Machine

def exec (i : Instr) (s : State) : Host.Outcome State Fault Refusal :=
  match i with
  | .hrd reg => Sys2Proof.Machine.execHrd reg s
  | .hwr reg data => Sys2Proof.Machine.execHwr reg data s
  | .atick ain => Sys2Proof.Machine.execAtick ain s
  | .reset => Sys2Proof.Machine.execReset s
  | .ctick => Sys2Proof.Machine.execCtick s
  | .hwrCtrl en clr => Sys2Proof.Machine.execHwrCtrl en clr s
  | .atOff => Sys2Proof.Machine.execAtOff s
  | .atPass => Sys2Proof.Machine.execAtPass s
  | .atRecE => Sys2Proof.Machine.execAtRecE s
  | .atRecO => Sys2Proof.Machine.execAtRecO s
  | .atDone => Sys2Proof.Machine.execAtDone s
  | .atPlayE => Sys2Proof.Machine.execAtPlayE s
  | .atPlayO => Sys2Proof.Machine.execAtPlayO s
  | .atPlayG => Sys2Proof.Machine.execAtPlayG s
  | .atPlayF => Sys2Proof.Machine.execAtPlayF s
  | .dspFq => Sys2Proof.Machine.execDspFq s
  | .dspByp => Sys2Proof.Machine.execDspByp s
  | .ctRecstart k => Sys2Proof.Machine.execCtRecstart k s
  | .ctPlaystart k => Sys2Proof.Machine.execCtPlaystart k s
  | .ctRecstop => Sys2Proof.Machine.execCtRecstop s
  | .ctRecack => Sys2Proof.Machine.execCtRecack s
  | .ctPlaystop => Sys2Proof.Machine.execCtPlaystop s
  | .ctNone => Sys2Proof.Machine.execCtNone s
  | .ctDir => Sys2Proof.Machine.execCtDir s
  | .ctSpg => Sys2Proof.Machine.execCtSpg s
  | .ctMod => Sys2Proof.Machine.execCtMod s
  | .ctRate => Sys2Proof.Machine.execCtRate s
  | .ctCommit => Sys2Proof.Machine.execCtCommit s
  | .mapSr k c => Sys2Proof.Machine.execMapSr k c s
  | .mapSw k c a b => Sys2Proof.Machine.execMapSw k c a b s
  | .grStep k => Sys2Proof.Machine.execGrStep k s

end Sys2Proof.Machine
end

