-- ==== Sys2Proof/Machine/Fetch.lean ====
section
/-! DEFINITION. Where the next operation comes from: the list of stimulus words (30_encoding.md R104, R112, R314),
and how a dispatch word of the opcode table comes to be the one the next tick assembles (log 10). -/

namespace Sys2Proof.Machine

/-- The next stimulus word, taken off the list (R104, R314). -/
def fetchStim (s : State) : Option (StimWord × State) :=
  match s.stim with
  | [] => none
  | w :: rest => some (w, { s with stim := rest })

/-- Put a stimulus word first in the list. -/
def pushStim (w : StimWord) (s : State) : State := { s with stim := w :: s.stim }

/-- The stimulus word `ATICK ain` (R113). -/
def atickWord (ain : Sample) : StimWord := stimWordOf 1#2 0#6 (0#12 ++ ain : BitVec 24)

/-- The stimulus word `CTICK` (R113). -/
def ctickWord : StimWord := stimWordOf 2#2 0x0F#6 1#24

/-- The state in which `TD` assembles to the given word, ticks enabled and a timer event coming next (R108). -/
def stageTick (w : TickWord) (s : State) : State :=
  pushStim (atickWord s.ain)
    { s with
      gest := (BitVec.ofBool (w.getLsbD 6) ++ s.gest.extractLsb' 0 7 : BitVec 8)
      freezeAct := w.getLsbD 5
      grainAct := w.getLsbD 4
      phase := w.getLsbD 3
      mode := (modeOfCode (w.extractLsb' 0 3)).getD s.mode
      tickEn := true
      tickPend := false }

/-- 20 ms before the present time (R35). -/
def guardPassed (s : State) : Word24 := s.msNow - BitVec.ofNat 24 Config.debounceMs

/-- A slot is recorded, or is selected by the gestures given. -/
def recordedWith (g : BitVec 8) (t : PerSlot Bool) : PerSlot Bool :=
  ⟨t.slot0 || gestSel g .slot0, t.slot1 || gestSel g .slot1,
   t.slot2 || gestSel g .slot2, t.slot3 || gestSel g .slot3⟩

/-- The state in which `CD` assembles to the given word with its side conditions met, and a control tick coming next
(R109). A reserved mode code has no state: its word selects `CT.NONE`, so a state is taken in which that runs. -/
def stageControl (w : ControlWord) (s : State) : State :=
  let g := w.extractLsb' 0 8
  let t := { s with gest := g, slot := slotOfBits (w.extractLsb' 11 2) }
  pushStim ctickWord
    (match modeOfCode (w.extractLsb' 8 3) with
     | some m =>
       { t with
         mode := m
         tRecStart := guardPassed s
         tRecEnd := guardPassed s
         freeSpace := true :: s.freeSpace
         recorded := recordedWith g s.recorded }
     | none =>
       { t with mode := .off, tRecEnd := s.msNow, recorded := ⟨false, false, false, false⟩ })

/-- The state whose next step runs the instruction with these bits (log 10). -/
def stageWord (s : State) (nbits w : Nat) : State :=
  match nbits with
  | 32 => pushStim (BitVec.ofNat 32 w) s
  | 8 => stageTick (BitVec.ofNat 8 w) s
  | 16 => stageControl (BitVec.ofNat 16 w) s
  | _ => s

end Sys2Proof.Machine
end

