-- ==== Sys2Proof/Machine/Step.lean ====
section
/-! DEFINITION. One step of the machine: the next stimulus word, decoded and executed (R104, R112, R314); with none
waiting CLE is idle and holds its state (R322). -/

namespace Sys2Proof.Machine

/-- One step. -/
def step (s : State) : Host.Outcome State Fault Refusal :=
  match fetchStim s with
  | some (w, t) => exec (decodeStim w) t
  | none => .next s

/-- The state whose next step runs the instruction with these bits, numbered as the opcode table numbers them. -/
def State.withFetchWord (s : State) (nbits w : Nat) : State := stageWord s nbits w

end Sys2Proof.Machine
end

