-- ==== Sys2Proof/Safety.lean ====
section
/-! DEFINITION. What a safe state of CLE is, in the terms of 10_state.md rule R48: valid boundaries (R344), valid
cursors (R183), the invariants of every reachable state. -/

namespace Sys2Proof.Machine

/-- A valid boundary: `dist(s, END[s])` is a multiple of 3 in 0 to 65535 (R48 (iii), R344). The value 0 of an
unrecorded slot is one for every slot, since 65535 is a multiple of 3. -/
abbrev ValidEnd (k : SlotId) (e : Int) : Prop :=
  0 ≤ distOf k e ∧ distOf k e ≤ Config.devTop ∧ distOf k e % 3 = 0

/-- A valid read cursor of a slot with boundary `e`: the set `V(s)` of R183. -/
abbrev ValidReadCursor (k : SlotId) (e c : Int) : Prop :=
  0 ≤ distOf k c ∧ distOf k c < max (extent k e) 3 ∧ distOf k c % 3 = 0

/-- A write cursor that `AT.REC.O` uses (R48 (iv), R183). -/
abbrev ValidWriteCursor (k : SlotId) (c : Int) : Prop :=
  0 ≤ distOf k c ∧ distOf k c ≤ 65532 ∧ distOf k c % 3 = 0

/-- What holds after reset and after every operation when `NV` satisfies R344 (R48), with the canonical form of the
three memories, `TICK_PEND = 0` whenever `TICK_EN = 1` (R313) and `DIR = 0` under freeze (R200). -/
structure Invariants (s : State) : Prop where
  /-- R48 (ii) -/
  notBothModifiers : ¬(s.grainAct = true ∧ s.freezeAct = true)
  /-- R48 (ii) -/
  modifierInPlayback : s.grainAct = true ∨ s.freezeAct = true → s.mode = .playback
  /-- R200 -/
  freezeForward : s.freezeAct = true → s.dir = false
  /-- R48 (iii) -/
  endsValid : ∀ k, ValidEnd k (endOf s k)
  /-- R344 -/
  nvValid : ∀ k, ValidEnd k ((storedEnd s k).toNat : Int)
  /-- R48 (iv) -/
  recordCursor : s.mode = .record → ValidWriteCursor s.slot s.wcur.toInt
  /-- R48 (iv) -/
  doneCursor : s.mode = .recordDone → distOf s.slot s.wcur.toInt = Config.devTop
  /-- R48 (v) -/
  playCursor : s.mode = .playback → ValidReadCursor s.slot (endOf s s.slot) s.pcur.toInt
  /-- R48 (v) -/
  grainCursor : s.mode = .playback → ValidReadCursor s.slot (endOf s s.slot) s.gaddr.toInt
  /-- R48 (v) -/
  anchorCursor : s.freezeAct = true → ValidReadCursor s.slot (endOf s s.slot) s.anchor.toInt
  /-- R48 (viii) -/
  spgPositive : 1 ≤ s.spg.toNat
  /-- R48 (viii) -/
  ratePositive : 1 ≤ s.rate.toNat
  /-- R48 (viii) -/
  recRatePositive : 1 ≤ s.recRate.toNat
  /-- R48 (viii) -/
  grainSizePositive : 1 ≤ s.grainSize.toNat
  /-- R48 (viii) -/
  bitresLegal : Config.resMin ≤ s.bitres.toNat ∧ s.bitres.toNat ≤ Config.resMax
  /-- R313 -/
  pendingOnlyDisabled : s.tickEn = true → s.tickPend = false
  /-- the canonical form of `STORE[A]` -/
  storeAWf : memWf Config.devBytes s.storeA = true
  /-- the canonical form of `STORE[B]` -/
  storeBWf : memWf Config.devBytes s.storeB = true
  /-- the canonical form of `NV` -/
  nvWf : memWf Config.nvOffsets s.nv = true

/-- The transitions of `MODE`, T1 to T6 of R154. -/
inductive ModeTransition : Mode → Mode → Prop where
  /-- T1, from OFF -/
  | offRecord : ModeTransition .off .record
  /-- T1, from PASSTHROUGH -/
  | passRecord : ModeTransition .passthrough .record
  /-- T2 -/
  | recordPass : ModeTransition .record .passthrough
  /-- T3 -/
  | recordDone : ModeTransition .record .recordDone
  /-- T4 -/
  | donePass : ModeTransition .recordDone .passthrough
  /-- T5, from OFF -/
  | offPlay : ModeTransition .off .playback
  /-- T5, from PASSTHROUGH -/
  | passPlay : ModeTransition .passthrough .playback
  /-- T6 -/
  | playPass : ModeTransition .playback .passthrough

/-- The row of step S5 that `GEST.bypass` selects (R250). -/
def dspRow (s : State) : Instr := if s.gest.getLsbD 7 then .dspByp else .dspFq

/-- `t` holds in `OUT` and the four accumulators what the DSP row selected in `s` makes of the mix of `t`
(R255: the chain is applied to the resulting mix). -/
def StagedOutput (s t : State) : Prop :=
  ∃ u, exec (dspRow s) { s with mix := t.mix } = .next u ∧ t.outSample = u.outSample ∧
    t.lpBuf0 = u.lpBuf0 ∧ t.lpBuf1 = u.lpBuf1 ∧ t.hpBuf0 = u.hpBuf0 ∧ t.hpBuf1 = u.hpBuf1

/-- One instruction executed a number of times, while it answers a next state. -/
def repeatExec (i : Instr) : Nat → State → Host.Outcome State Fault Refusal
  | 0, s => .next s
  | n + 1, s =>
    match exec i s with
    | .next t => repeatExec i n t
    | .fault f => .fault f
    | .refused r => .refused r

end Sys2Proof.Machine
end

