-- ==== Sys2Proof/Certificates/Slice0/Obligations.lean ====
section
/-! DEFINITION. The statements for the provers. A statement of an operation's effect gives the whole next state: the
fields written, by their values, and every other field as before (a record update of the old state). -/

open Sys2Proof Sys2Proof.Machine

/-! ### Encodings -/

/-- R104, R108, R109, R110, R113: every well-formed instruction with an encoding is read back from it in the step that
decodes its row (side conditions of R109 granted, log 10), and exactly the four sub-operations have none. -/
def Obligations.EncodedInstructionsDecodeToThemselves : Prop :=
  ∀ i : Instr, i.wellFormed = true →
    (∃ st w, i.opStep = some st ∧ encode i = some w ∧ decodeAt st sideCondsMet w = .ok i) ∨
    (i.opStep = none ∧ encode i = none ∧
      (i = .ctCommit ∨ (∃ k c, i = .mapSr k c) ∨ (∃ k c a b, i = .mapSw k c a b) ∨ ∃ k, i = .grStep k))

/-- R104, R110, R111: every 32-bit word is a stimulus word of a well-formed instruction, whose own encoding has the
word's kind and decodes to the same instruction. -/
def Obligations.EveryStimulusWordIsAnInstruction : Prop :=
  ∀ w : StimWord, (decodeStim w).wellFormed = true ∧
    ∃ w', encode (decodeStim w) = some (.stim w') ∧ decodeStim w' = decodeStim w ∧
      w'.extractLsb' 30 2 = w.extractLsb' 30 2

/-- R108, R109: the words assembled from the state decode to what the state's own fields select. -/
def Obligations.DispatchWordsDecodeToStateSelection : Prop :=
  ∀ s : State,
    decodeTick (tickWord s) = .ok (selectTick (tickFields s)) ∧
    decodeDsp (tickWord s) = .ok (dspRow s) ∧
    ∀ c, decodeTransition c (controlWord s) = .ok (selectTransition c (controlFields s))

/-- R108: the two tables of the tick dispatch word, row by row. That the reserved mode codes 5 to 7, which R108 and R111
call unreachable, are refused under the name `tickReservedMode` is the model's choice (log 8). -/
def Obligations.TickDispatchTable : Prop :=
  ∀ w : TickWord, w.getLsbD 7 = false →
    let mode := w.extractLsb' 0 3
    let phase := w.getLsbD 3
    let mods := w.extractLsb' 4 2
    (mode = 0#3 → decodeTick w = .ok .off) ∧
    (mode = 1#3 → decodeTick w = .ok .pass) ∧
    (mode = 2#3 ∧ phase = false → decodeTick w = .ok .recEven) ∧
    (mode = 2#3 ∧ phase = true → decodeTick w = .ok .recOdd) ∧
    (mode = 3#3 → decodeTick w = .ok .done) ∧
    (mode = 4#3 ∧ phase = false ∧ mods = 0#2 → decodeTick w = .ok .playEven) ∧
    (mode = 4#3 ∧ phase = true → decodeTick w = .ok .playOdd) ∧
    (mode = 4#3 ∧ phase = false ∧ (mods = 1#2 ∨ mods = 3#2) → decodeTick w = .ok .playGrain) ∧
    (mode = 4#3 ∧ phase = false ∧ mods = 2#2 → decodeTick w = .ok .playFreeze) ∧
    (mode = 5#3 ∨ mode = 6#3 ∨ mode = 7#3 → decodeTick w = .error .tickReservedMode) ∧
    (w.getLsbD 6 = false → decodeDsp w = .ok .dspFq) ∧
    (w.getLsbD 6 = true → decodeDsp w = .ok .dspByp)

/-- R104, R108, R109, R113: some words written out from the spec's encodings decode to what they stand for. The two
control dispatch words are read with the side conditions of R109 granted, the model's choice (log 10): by its bits
alone 0x0083 leaves `CT.RECSTART(0)`, `CT.PLAYSTART(0)` and `CT.NONE` open. -/
def Obligations.WrittenOutWordsDecode : Prop :=
  decodeStim 0x11000000#32 = .hrd 0x11#6 ∧
  decodeStim 0x8400000D#32 = .hwr 0x04#6 13#24 ∧
  decodeStim 0x8F000001#32 = .ctick ∧
  decodeStim 0x80000003#32 = .hwrCtrl true true ∧
  decodeStim 0x40000123#32 = .atick 0x123#12 ∧
  decodeStim 0xC0000000#32 = .reset ∧
  decodeTick 0x4A#8 = .ok .recOdd ∧
  decodeTick 0x24#8 = .ok .playFreeze ∧
  decodeDsp 0x4A#8 = .ok .dspByp ∧
  decodeTransition sideCondsMet 0x0083#16 = .ok (.recStart .slot0) ∧
  decodeTransition sideCondsMet 0x0C04#16 = .ok .none

/-! ### One step -/

/-- R104, R112, R314, R322 (and log 1, the model's list of stimulus words): a step takes the next stimulus word off the
list and is `exec` of the instruction it decodes to; with none waiting CLE is idle and holds its state. -/
def Obligations.StepRunsTheNextStimulusWord : Prop :=
  (∀ (s : State) (w : StimWord) (rest : List StimWord), s.stim = w :: rest →
    step s = exec (decodeStim w) { s with stim := rest }) ∧
  (∀ s : State, s.stim = [] → step s = .next s) ∧
  (∀ (s : State) (w : Nat), step (s.withFetchWord 32 w) = exec (decodeStim (BitVec.ofNat 32 w)) s)

/-- R108, R109 (and log 10, the model's choice): staging a dispatch word makes the next step run the operation the
word selects: for a tick word exactly its audio-tick operation, for a control word the control tick whose step K3 is the
transition of the word with its side conditions granted. -/
def Obligations.StagedDispatchWordsAreTheNextStep : Prop :=
  (∀ (s : State) (w : Nat) (op : TickOp), decodeTick (BitVec.ofNat 8 w) = .ok op →
    step (s.withFetchWord 8 w) = exec op.instr { s.withFetchWord 8 w with stim := s.stim }) ∧
  (∀ (s : State) (w : Nat) (tr : Transition),
    decodeTransition sideCondsMet (BitVec.ofNat 16 w) = .ok tr →
    step (s.withFetchWord 16 w) = exec .ctick { s.withFetchWord 16 w with stim := s.stim } ∧
      selectTransition (sideConds (s.withFetchWord 16 w)) (controlFields (s.withFetchWord 16 w)) = tr)

/-! ### Reset and the invariants -/

/-- R45, R47, R340, R341: the reset event gives every register its reset value, loads the boundaries and the
recorded flags from `NV` by twelve reads in ascending order, and writes no memory. That it leaves the model's own fields
`ain`, `freeSpace` and `stim` as they are is the model's choice (log 12). -/
def Obligations.ResetEventSetsEveryRegister : Prop :=
  ∀ s : State, ∃ t : State, exec .reset s = .next t ∧
    t = { mode := .off, phase := false, dir := false, slot := .slot0
          pcur := 0#25, wcur := 0#25, gaddr := 0#25, gcnt := 0#24, spg := 1#24
          grainAct := false, freezeAct := false, anchor := 0#25
          endAddr := t.endAddr, recorded := t.recorded
          inSample := 2048#12, rbuf := 2048#12, d0 := 2048#12, d1 := 2048#12, mix := 0#12
          outSample := 2048#12, tout := .continued
          lpBuf0 := 0#24, lpBuf1 := 0#24, hpBuf0 := 0#24, hpBuf1 := 0#24
          cutLp := 255#8, fbLp := 0#16, cutHp := 0#8, fbHp := 0#16
          rate := 16000#16, bitres := 12#4, grainSize := 1#16, stretch := 256#16
          gest := 0#8, msNow := 0#24, tRecStart := 0#24, tRecEnd := 0#24
          recRate := 16000#16, tickRate := 16000#16, tickEn := false, ovr := false, tickPend := false
          storeA := s.storeA, storeB := s.storeB, nv := s.nv
          ain := s.ain, freeSpace := s.freeSpace, stim := s.stim
          trace := s.trace ++ (List.range 12).map fun o => PortEvent.nvRead o (memRead s.nv o) } ∧
    ∀ k : SlotId,
      (slotGet t.endAddr k).toNat =
        65536 * (memRead s.nv (3 * slotNumber k)).toNat + 256 * (memRead s.nv (3 * slotNumber k + 1)).toNat +
          (memRead s.nv (3 * slotNumber k + 2)).toNat ∧
      slotGet t.recorded k = decide ((slotGet t.endAddr k).toNat ≠ 0)

/-- R45 over memories that read 0 everywhere (logs 2, 5, 6: the model's choice of `STORE_INIT`, `NV_INIT` and of an
empty trace): `State.reset` is what the reset event leaves of itself, less the twelve reads. -/
def Obligations.ResetStateIsResetOfBlankMemories : Prop :=
  ∃ t : State, exec .reset State.reset = .next t ∧ { t with trace := [] } = State.reset

/-- R48 (with R200, R313 and the canonical form of memory): the state after reset meets the invariants. -/
def Obligations.ResetStateMeetsInvariants : Prop := Invariants State.reset

/-- R46, R48, R344: from any state whose `NV` satisfies R344 and whose memories are canonical, the reset event completes
and establishes the invariants. -/
def Obligations.ResetEventEstablishesInvariants : Prop :=
  ∀ s : State, (∀ k, ValidEnd k ((storedEnd s k).toNat : Int)) →
    memWf Config.devBytes s.storeA = true → memWf Config.devBytes s.storeB = true →
    memWf Config.nvOffsets s.nv = true →
    ∃ t : State, exec .reset s = .next t ∧ Invariants t

/-- R48: every step keeps the invariants, from every state that meets them. -/
def Obligations.EveryStepKeepsInvariants : Prop :=
  ∀ s t : State, Invariants s → step s = .next t → Invariants t

/-- R87, R269, R310: in a state that meets the invariants no operation stops: every step answers a next state. -/
def Obligations.NoStepStopsUnderInvariants : Prop :=
  ∀ s : State, Invariants s → ∃ t : State, step s = .next t

/-! ### The host port -/

/-- R38, R290: a host read changes no register and returns the register's value: zero-extended, of a signed register
the low 24 bits of its two's complement, `CTRL` and `STATUS` packed, `CMD` and unmapped numbers 0. -/
def Obligations.HostReadReturnsTheRegister : Prop :=
  ∀ (s : State) (reg : RegNumber), ∃ v : Word24,
    exec (.hrd reg) s = .next { s with trace := s.trace ++ [.hostRead reg v] } ∧
    (reg = 0x00#6 → v.toNat = s.tickEn.toNat + 2 * s.ovr.toNat + 4 * s.tickPend.toNat) ∧
    (reg = 0x01#6 → v.toNat = s.gest.toNat) ∧
    (reg = 0x02#6 → v = s.msNow) ∧
    (reg = 0x03#6 → v.toNat = s.rate.toNat) ∧
    (reg = 0x04#6 → v.toNat = s.bitres.toNat) ∧
    (reg = 0x05#6 → v.toNat = s.cutLp.toNat) ∧
    (reg = 0x06#6 → v.toNat = s.fbLp.toNat) ∧
    (reg = 0x07#6 → v.toNat = s.cutHp.toNat) ∧
    (reg = 0x08#6 → v.toNat = s.fbHp.toNat) ∧
    (reg = 0x09#6 → v.toNat = s.grainSize.toNat) ∧
    (reg = 0x0A#6 → v.toNat = s.stretch.toNat) ∧
    (0x0B#6 ≤ reg ∧ reg ≤ 0x0F#6 → v = 0#24) ∧
    (reg = 0x10#6 → v.toNat = (modeCode s.mode).toNat) ∧
    (reg = 0x11#6 → v.toNat = s.phase.toNat + 2 * s.dir.toNat + 4 * slotNumber s.slot +
      16 * s.grainAct.toNat + 32 * s.freezeAct.toNat + 64 * (outcomeCode s.tout).toNat +
      256 * s.recorded.slot0.toNat + 512 * s.recorded.slot1.toNat +
      1024 * s.recorded.slot2.toNat + 2048 * s.recorded.slot3.toNat) ∧
    (reg = 0x12#6 → v = BitVec.ofInt 24 s.pcur.toInt) ∧
    (reg = 0x13#6 → v = BitVec.ofInt 24 s.wcur.toInt) ∧
    (reg = 0x14#6 → v = BitVec.ofInt 24 s.gaddr.toInt) ∧
    (reg = 0x15#6 → v = s.gcnt) ∧
    (reg = 0x16#6 → v = s.spg) ∧
    (reg = 0x17#6 → v = BitVec.ofInt 24 s.anchor.toInt) ∧
    (reg = 0x18#6 → v = slotGet s.endAddr .slot0) ∧
    (reg = 0x19#6 → v = slotGet s.endAddr .slot1) ∧
    (reg = 0x1A#6 → v = slotGet s.endAddr .slot2) ∧
    (reg = 0x1B#6 → v = slotGet s.endAddr .slot3) ∧
    (reg = 0x1C#6 → v.toNat = s.recRate.toNat) ∧
    (reg = 0x1D#6 → v.toNat = s.tickRate.toNat) ∧
    (reg = 0x1E#6 → v.toNat = s.outSample.toNat) ∧
    (reg = 0x1F#6 → v = BitVec.ofInt 24 s.mix.toInt) ∧
    (reg = 0x20#6 → v = s.lpBuf0) ∧
    (reg = 0x21#6 → v = s.lpBuf1) ∧
    (reg = 0x22#6 → v = s.hpBuf0) ∧
    (reg = 0x23#6 → v = s.hpBuf1) ∧
    (reg = 0x24#6 → v.toNat = s.inSample.toNat) ∧
    (reg = 0x25#6 → v.toNat = s.rbuf.toNat) ∧
    (reg = 0x26#6 → v.toNat = s.d0.toNat) ∧
    (reg = 0x27#6 → v.toNat = s.d1.toNat) ∧
    (reg = 0x28#6 → v = s.tRecStart) ∧
    (reg = 0x29#6 → v = s.tRecEnd) ∧
    (0x2A#6 ≤ reg → v = 0#24)

/-- R292: the value each writable register takes from a write, and that nothing else changes; a write to `CTRL` leaves
`TICK_EN` and `OVR` as its row says, and `CMD` stores nothing: it is one control tick or nothing. -/
def Obligations.HostWritesAreLegalised : Prop :=
  ∀ (s : State) (d : Word24),
    (∃ v, exec (.hwr 0x01#6 d) s = .next { s with gest := v } ∧ v.toNat = d.toNat % 256) ∧
    (exec (.hwr 0x02#6 d) s = .next { s with msNow := d }) ∧
    (∃ v, exec (.hwr 0x03#6 d) s = .next { s with rate := v } ∧ v.toNat = max 1 (d.toNat % 65536)) ∧
    (∃ v, exec (.hwr 0x04#6 d) s = .next { s with bitres := v } ∧
      v.toNat = min 12 (max 1 (d.toNat % 16))) ∧
    (∃ v, exec (.hwr 0x05#6 d) s = .next { s with cutLp := v } ∧ v.toNat = d.toNat % 256) ∧
    (∃ v, exec (.hwr 0x06#6 d) s = .next { s with fbLp := v } ∧ v.toNat = d.toNat % 65536) ∧
    (∃ v, exec (.hwr 0x07#6 d) s = .next { s with cutHp := v } ∧ v.toNat = d.toNat % 256) ∧
    (∃ v, exec (.hwr 0x08#6 d) s = .next { s with fbHp := v } ∧ v.toNat = d.toNat % 65536) ∧
    (∃ v, exec (.hwr 0x09#6 d) s = .next { s with grainSize := v } ∧ v.toNat = max 1 (d.toNat % 65536)) ∧
    (∃ v, exec (.hwr 0x0A#6 d) s = .next { s with stretch := v } ∧ v.toNat = d.toNat % 65536) ∧
    (exec (.hwr 0x00#6 d) s = exec (.hwrCtrl (d.getLsbD 0) (d.getLsbD 1)) s) ∧
    (∀ t, exec (.hwr 0x00#6 d) s = .next t →
      t.tickEn = d.getLsbD 0 ∧ t.ovr = (s.ovr && !d.getLsbD 1)) ∧
    (exec (.hwr 0x0F#6 d) s = if d.getLsbD 0 = true then exec .ctick s else .next s)

/-- R297: writes to read-only and unmapped numbers change nothing, reads of unmapped numbers and of `CMD` return 0. -/
def Obligations.UnmappedAndReadOnlyWritesAreIgnored : Prop :=
  (∀ (s : State) (reg : RegNumber) (d : Word24),
    (0x10#6 ≤ reg ∧ reg ≤ 0x29#6) ∨ (0x0B#6 ≤ reg ∧ reg ≤ 0x0E#6) ∨ 0x2A#6 ≤ reg →
    exec (.hwr reg d) s = .next s) ∧
  (∀ (s : State) (reg : RegNumber), (0x0B#6 ≤ reg ∧ reg ≤ 0x0F#6) ∨ 0x2A#6 ≤ reg →
    exec (.hrd reg) s = .next { s with trace := s.trace ++ [.hostRead reg 0#24] })

/-- R296: the write to `CTRL`: `OVR` cleared if `data[1]`, `TICK_EN` set to `data[0]`, and where that enables ticks with
one pending, `TICK_PEND` cleared and the audio tick run inside the write. -/
def Obligations.ControlWriteReleasesThePendingTick : Prop :=
  ∀ (s : State) (en clr : Bool),
    (en = true ∧ s.tickPend = true →
      exec (.hwrCtrl en clr) s =
        exec (selectTick (tickFields s)).instr
          { s with ovr := s.ovr && !clr, tickEn := true, tickPend := false }) ∧
    (¬(en = true ∧ s.tickPend = true) →
      exec (.hwrCtrl en clr) s = .next { s with ovr := s.ovr && !clr, tickEn := en })

/-- R294, R313: a timer event with ticks enabled runs the audio tick on the level presented; with ticks disabled it is
held, and sets `OVR` if one is held already. -/
def Obligations.TimerEventRunsOrIsHeld : Prop :=
  ∀ (s : State) (a : Sample),
    (s.tickEn = true →
      exec (.atick a) s = exec (selectTick (tickFields s)).instr { s with ain := a }) ∧
    (s.tickEn = false →
      exec (.atick a) s = .next { s with ain := a, ovr := s.ovr || s.tickPend, tickPend := true })

/-- R256, R269, R313: under the invariants an accepted timer event always completes as one audio tick, which toggles
`PHASE` whatever the mode and leaves the control bits alone. -/
def Obligations.AcceptedTimerEventCompletes : Prop :=
  ∀ (s : State) (a : Sample), Invariants s → s.tickEn = true →
    ∃ t : State, exec (.atick a) s = .next t ∧ t.phase = !s.phase ∧ t.ain = a ∧
      t.tickEn = true ∧ t.tickPend = false ∧ t.ovr = s.ovr

/-- R256: every audio tick that runs toggles `PHASE`, in every mode and with every dispatched operation; a control tick,
which makes the mode entries, never writes it. -/
def Obligations.EveryAudioTickTogglesPhase : Prop :=
  (∀ (s t : State) (op : TickOp), exec op.instr s = .next t → t.phase = !s.phase) ∧
  (∀ s t : State, exec .ctick s = .next t → t.phase = s.phase)

/-! ### The audio tick -/

/-- R257, R258: `AT.OFF` and `AT.PASS` emit the staged output, sample the input and re-centre it into the mix. -/
def Obligations.PassthroughTickMovesInputToMix : Prop :=
  ∀ (s : State) (i : Instr), i = .atOff ∨ i = .atPass →
    ∃ t : State, exec i s = .next t ∧
      t = { s with
            tout := .continued, inSample := s.ain, mix := t.mix, outSample := t.outSample
            lpBuf0 := t.lpBuf0, lpBuf1 := t.lpBuf1, hpBuf0 := t.hpBuf0, hpBuf1 := t.hpBuf1
            phase := !s.phase, trace := s.trace ++ [.dac s.outSample, .adc s.ain] } ∧
      t.mix.toInt = (s.ain.toNat : Int) - 2048 ∧ StagedOutput s t

/-- R259: `AT.REC.E` also buffers the input in `RBUF`; no storage access. -/
def Obligations.EvenRecordTickBuffersTheInput : Prop :=
  ∀ s : State, s.phase = false →
    ∃ t : State, exec .atRecE s = .next t ∧
      t = { s with
            tout := .continued, inSample := s.ain, mix := t.mix, rbuf := s.ain, outSample := t.outSample
            lpBuf0 := t.lpBuf0, lpBuf1 := t.lpBuf1, hpBuf0 := t.hpBuf0, hpBuf1 := t.hpBuf1
            phase := true, trace := s.trace ++ [.dac s.outSample, .adc s.ain] } ∧
      t.mix.toInt = (s.ain.toNat : Int) - 2048 ∧ StagedOutput s t

/-- R253, R260, R181, R182: `AT.REC.O` writes the pair (`RBUF`, `IN`) as one record at the write cursor, advances the
cursor by one record away from the origin and, where the next record would not fit, enters RECORD_DONE. Only the
three bytes of the record change, on the slot's device only. -/
def Obligations.OddRecordTickWritesOneRecord : Prop :=
  ∀ s : State, s.mode = .record → s.phase = true →
    (let b := recordBase s.slot s.wcur.toInt
     0 ≤ b ∧ b ≤ 65533 →
      ∃ t : State, exec .atRecO s = .next t ∧
        t = { s with
              tout := t.tout, mode := t.mode, inSample := s.ain, mix := t.mix, outSample := t.outSample
              lpBuf0 := t.lpBuf0, lpBuf1 := t.lpBuf1, hpBuf0 := t.hpBuf0, hpBuf1 := t.hpBuf1
              wcur := t.wcur, storeA := t.storeA, storeB := t.storeB, phase := false
              trace := s.trace ++ [.dac s.outSample, .adc s.ain,
                .storeWrite (chipOf s.slot) b.toNat (pack s.rbuf s.ain).y0 (pack s.rbuf s.ain).y1
                  (pack s.rbuf s.ain).y2] } ∧
        t.mix.toInt = (s.ain.toNat : Int) - 2048 ∧
        t.wcur.toInt = s.wcur.toInt + 3 * sigma s.slot ∧
        (distOf s.slot t.wcur.toInt > 65533 → t.mode = .recordDone ∧ t.tout = .terminated) ∧
        (distOf s.slot t.wcur.toInt ≤ 65533 → t.mode = .record ∧ t.tout = .continued) ∧
        (∀ c : Chip, c ≠ chipOf s.slot → deviceOf t c = deviceOf s c) ∧
        (∀ a : Nat, a < b.toNat ∨ b.toNat + 2 < a →
          memRead (deviceOf t (chipOf s.slot)) a = memRead (deviceOf s (chipOf s.slot)) a) ∧
        (memWf Config.devBytes (deviceOf s (chipOf s.slot)) = true →
          recordAt (deviceOf t (chipOf s.slot)) b.toNat = pack s.rbuf s.ain) ∧
        StagedOutput s t)

/-- R261: `AT.DONE` emits nothing, samples nothing, accesses no storage; only the DSP step and the phase. -/
def Obligations.RecordDoneTickOnlyFilters : Prop :=
  ∀ s : State, ∃ t : State, exec .atDone s = .next t ∧
    t = { s with
          tout := .continued, outSample := t.outSample
          lpBuf0 := t.lpBuf0, lpBuf1 := t.lpBuf1, hpBuf0 := t.hpBuf0, hpBuf1 := t.hpBuf1
          phase := !s.phase } ∧
    StagedOutput s t

/-- R262, R266: `AT.PLAY.E` reads the record at `PCUR`, mixes its first sample with the input, clamps, and advances the
cursor with its wraparound. -/
def Obligations.EvenPlaybackTickReadsAndAdvances : Prop :=
  ∀ s : State, s.phase = false →
    (let b := recordBase s.slot s.pcur.toInt
     let p := recordAt (deviceOf s (chipOf s.slot)) b.toNat
     0 ≤ b ∧ b ≤ 65533 →
      ∃ t : State, exec .atPlayE s = .next t ∧
        t = { s with
              tout := .continued, d0 := t.d0, d1 := t.d1, inSample := s.ain, mix := t.mix
              pcur := BitVec.ofInt 25
                (wrapCursor s.slot s.dir (endOf s s.slot) (s.pcur.toInt + effStep s.slot s.dir))
              outSample := t.outSample
              lpBuf0 := t.lpBuf0, lpBuf1 := t.lpBuf1, hpBuf0 := t.hpBuf0, hpBuf1 := t.hpBuf1
              phase := true
              trace := s.trace ++ [.dac s.outSample,
                .storeRead (chipOf s.slot) b.toNat p.y0 p.y1 p.y2, .adc s.ain] } ∧
        t.d0.toNat = 16 * p.y0.toNat + p.y1.toNat / 16 ∧
        t.d1.toNat = 256 * (p.y1.toNat % 16) + p.y2.toNat ∧
        t.mix.toInt =
          max (-2048) (min 2047 (((t.d0.toNat : Int) - 2048) + ((s.ain.toNat : Int) - 2048))) ∧
        StagedOutput s t)

/-- R263, R266: `AT.PLAY.O` mixes the second sample of the last read with a fresh input; no storage access. -/
def Obligations.OddPlaybackTickPlaysTheSecondSample : Prop :=
  ∀ s : State, s.phase = true →
    ∃ t : State, exec .atPlayO s = .next t ∧
      t = { s with
            tout := .continued, inSample := s.ain, mix := t.mix, outSample := t.outSample
            lpBuf0 := t.lpBuf0, lpBuf1 := t.lpBuf1, hpBuf0 := t.hpBuf0, hpBuf1 := t.hpBuf1
            phase := false, trace := s.trace ++ [.dac s.outSample, .adc s.ain] } ∧
      t.mix.toInt =
        max (-2048) (min 2047 (((s.d1.toNat : Int) - 2048) + ((s.ain.toNat : Int) - 2048))) ∧
      StagedOutput s t

/-- R203, R264, R265: `AT.PLAY.G` and `AT.PLAY.F` issue the normal read, sample the input, and substitute the grain
record unmixed; `PCUR` does not move, and a full window closes. R264 and R265 fix the re-seed target, `start(SLOT)` and
`ANCHOR`, where they are dispatched; that it follows the state's own `FREEZE_ACT` (R202) for either row in a state that
would dispatch the other is the model's choice (log 9). -/
def Obligations.SubstitutedTickPlaysTheGrain : Prop :=
  ∀ (s : State) (i : Instr), i = .atPlayG ∨ i = .atPlayF → s.phase = false →
    (let b := recordBase s.slot s.pcur.toInt
     let g := recordBase s.slot (grainPosOf s s.slot)
     let p := recordAt (deviceOf s (chipOf s.slot)) b.toNat
     let q := recordAt (deviceOf s (chipOf s.slot)) g.toNat
     0 ≤ b ∧ b ≤ 65533 ∧ 0 ≤ g ∧ g ≤ 65533 →
      ∃ t : State, exec i s = .next t ∧
        t = { s with
              tout := .substituted, d0 := t.d0, d1 := t.d1, inSample := s.ain, mix := t.mix
              gcnt := t.gcnt, gaddr := t.gaddr, outSample := t.outSample
              lpBuf0 := t.lpBuf0, lpBuf1 := t.lpBuf1, hpBuf0 := t.hpBuf0, hpBuf1 := t.hpBuf1
              phase := true
              trace := s.trace ++ [.dac s.outSample,
                .storeRead (chipOf s.slot) b.toNat p.y0 p.y1 p.y2, .adc s.ain,
                .storeRead (chipOf s.slot) g.toNat q.y0 q.y1 q.y2] } ∧
        t.d0.toNat = 16 * q.y0.toNat + q.y1.toNat / 16 ∧
        t.d1.toNat = 256 * (q.y1.toNat % 16) + q.y2.toNat ∧
        t.mix.toInt = (t.d0.toNat : Int) - 2048 ∧
        (s.spg ≤ s.gcnt + 1#24 →
          t.gcnt = 0#24 ∧ t.gaddr = BitVec.ofInt 25 (grainNextOf s s.slot)) ∧
        (¬s.spg ≤ s.gcnt + 1#24 → t.gcnt = s.gcnt + 1#24 ∧ t.gaddr = s.gaddr) ∧
        StagedOutput s t)

/-- R203: `GR.STEP(s)` by itself. -/
def Obligations.GrainStepReadsAndCounts : Prop :=
  ∀ (s : State) (k : SlotId),
    (let g := recordBase k (grainPosOf s k)
     let q := recordAt (deviceOf s (chipOf k)) g.toNat
     0 ≤ g ∧ g ≤ 65533 →
      ∃ t : State, exec (.grStep k) s = .next t ∧
        t = { s with
              tout := .substituted, d0 := t.d0, d1 := t.d1, mix := t.mix, gcnt := t.gcnt, gaddr := t.gaddr
              trace := s.trace ++ [.storeRead (chipOf k) g.toNat q.y0 q.y1 q.y2] } ∧
        t.d0.toNat = 16 * q.y0.toNat + q.y1.toNat / 16 ∧
        t.d1.toNat = 256 * (q.y1.toNat % 16) + q.y2.toNat ∧
        t.mix.toInt = (t.d0.toNat : Int) - 2048 ∧
        (s.spg ≤ s.gcnt + 1#24 → t.gcnt = 0#24 ∧ t.gaddr = BitVec.ofInt 25 (grainNextOf s k)) ∧
        (¬s.spg ≤ s.gcnt + 1#24 → t.gcnt = s.gcnt + 1#24 ∧ t.gaddr = s.gaddr))

/-- R250 against R257 to R265: the tick as six ordered steps and the tick split by dispatch are the same function of
the state. -/
def Obligations.DispatchFormEqualsStepForm : Prop :=
  ∀ s : State, exec (selectTick (tickFields s)).instr s = audioTickSteps s

/-! ### The filter and quantizer -/

/-- R221, R222, R223, R224, R227: the cascade's accumulators and output, with `/` the floor of R8 and the mask as keeping
the top `BITRES` bits of the re-centred value. -/
def Obligations.FilterChainFollowsTheStageEquations : Prop :=
  ∀ s : State, ∃ t : State, exec .dspFq s = .next t ∧
    t = { s with
          lpBuf0 := t.lpBuf0, lpBuf1 := t.lpBuf1, hpBuf0 := t.hpBuf0, hpBuf1 := t.hpBuf1
          outSample := t.outSample } ∧
    (let x := s.mix.toInt
     let l0 := s.lpBuf0.toInt
     let l1 := s.lpBuf1.toInt
     let h0 := s.hpBuf0.toInt
     let h1 := s.hpBuf1.toInt
     let y1 := t.lpBuf1.toInt
     t.lpBuf0.toInt = wrap24
       (l0 + (s.cutLp.toNat : Int) * ((x - l0) + (s.fbLp.toNat : Int) * (l0 - l1) / 256) / 256) ∧
     t.lpBuf1.toInt = wrap24 (l1 + (s.cutLp.toNat : Int) * (t.lpBuf0.toInt - l1) / 256) ∧
     t.hpBuf0.toInt = wrap24
       (h0 + (s.cutHp.toNat : Int) * ((y1 - h0) + (s.fbHp.toNat : Int) * (h0 - h1) / 256) / 256) ∧
     t.hpBuf1.toInt = wrap24 (h1 + (s.cutHp.toNat : Int) * (t.hpBuf0.toInt - h1) / 256) ∧
     (1 ≤ s.bitres.toNat ∧ s.bitres.toNat ≤ 12 →
       t.outSample.toNat =
         (max (-2048) (min 2047 (y1 - h0)) + 2048).toNat / 2 ^ (12 - s.bitres.toNat) *
           2 ^ (12 - s.bitres.toNat)))

/-- R225, R228: the bypass re-centres the mix and writes nothing else. -/
def Obligations.FilterBypassOnlyRecentres : Prop :=
  ∀ s : State, ∃ t : State, exec .dspByp s = .next t ∧ t = { s with outSample := t.outSample } ∧
    (t.outSample.toNat : Int) = s.mix.toInt + 2048

/-- R224, R229: `mask(r)` is the top `r` of twelve bits: `2^12 - 2^(12-r)`; it has exactly `r` one-bits and is contained
in `mask(r+1)`. -/
def Obligations.MaskPreservesTheTopBits : Prop :=
  ∀ r : Nat, 1 ≤ r → r ≤ 12 →
    (bitMask r).toNat = 4096 - 2 ^ (12 - r) ∧
    ((List.range 12).filter fun i => (bitMask r).getLsbD i).length = r ∧
    (r < 12 → bitMask r &&& bitMask (r + 1) = bitMask r)

/-- R9, R266: `clamp12` gives exactly the bounds outside its range and is the identity inside. -/
def Obligations.ClampIsExactOutsideAndIdentityInside : Prop :=
  ∀ x : Int, (x < -2048 → clamp12 x = -2048) ∧ (x > 2047 → clamp12 x = 2047) ∧
    (-2048 ≤ x ∧ x ≤ 2047 → clamp12 x = x)

/-! ### The mapper -/

/-- R179: packing and unpacking are inverse, and a mapped read after a mapped write of the same slot and cursor returns
the samples written. -/
def Obligations.PackedSamplesRoundTrip : Prop :=
  (∀ a b : Sample, unpack (pack a b) = (a, b)) ∧
  (∀ p : Packed, pack (unpack p).1 (unpack p).2 = p) ∧
  (∀ (s : State) (k : SlotId) (c : Cursor) (a b : Sample),
    (Instr.mapSw k c a b).wellFormed = true → memWf Config.devBytes (deviceOf s (chipOf k)) = true →
    ∃ t, exec (.mapSw k c a b) s = .next t ∧ ∃ r, mappedRead t k c.toInt = some r ∧ r.1 = (a, b))

/-- R181: `MAP.SW` writes the three bytes of one record on the slot's device and nothing else. -/
def Obligations.MappedWriteChangesOneRecord : Prop :=
  ∀ (s : State) (k : SlotId) (c : Cursor) (a b : Sample),
    (let base := recordBase k c.toInt
     0 ≤ base ∧ base ≤ 65533 →
      ∃ t : State, exec (.mapSw k c a b) s = .next t ∧
        t = { s with
              storeA := t.storeA, storeB := t.storeB
              trace := s.trace ++ [.storeWrite (chipOf k) base.toNat (pack a b).y0 (pack a b).y1
                (pack a b).y2] } ∧
        (∀ d : Chip, d ≠ chipOf k → deviceOf t d = deviceOf s d) ∧
        (∀ x : Nat, x < base.toNat ∨ base.toNat + 2 < x →
          memRead (deviceOf t (chipOf k)) x = memRead (deviceOf s (chipOf k)) x) ∧
        (memWf Config.devBytes (deviceOf s (chipOf k)) = true →
          recordAt (deviceOf t (chipOf k)) base.toNat = pack a b))

/-- R180: `MAP.SR` issues one `StoreRead` at the record base and writes no register; the result is the unpacked pair. -/
def Obligations.MappedReadWritesNothing : Prop :=
  ∀ (s : State) (k : SlotId) (c : Cursor),
    (let base := recordBase k c.toInt
     let p := recordAt (deviceOf s (chipOf k)) base.toNat
     0 ≤ base ∧ base ≤ 65533 →
      exec (.mapSr k c) s =
        .next { s with trace := s.trace ++ [.storeRead (chipOf k) base.toNat p.y0 p.y1 p.y2] } ∧
      ∃ r, mappedRead s k c.toInt = some r ∧
        r.1.1.toNat = 16 * p.y0.toNat + p.y1.toNat / 16 ∧ r.1.2.toNat = 256 * (p.y1.toNat % 16) + p.y2.toNat)

/-- R87 with I4: outside the record bases 0 to 65533 a packed transaction is refused by name, and with it each operation
that issues it, at whichever of its transactions: the model's choice (log 7). -/
def Obligations.OutOfRangeRecordBaseIsRefused : Prop :=
  (∀ (s : State) (k : SlotId) (c : Cursor), recordBase k c.toInt < 0 ∨ 65533 < recordBase k c.toInt →
    exec (.mapSr k c) s = .refused .storageBaseOutOfRange ∧
    ∀ a b, exec (.mapSw k c a b) s = .refused .storageBaseOutOfRange) ∧
  (∀ s : State, recordBase s.slot s.wcur.toInt < 0 ∨ 65533 < recordBase s.slot s.wcur.toInt →
    exec .atRecO s = .refused .storageBaseOutOfRange) ∧
  (∀ s : State, recordBase s.slot s.pcur.toInt < 0 ∨ 65533 < recordBase s.slot s.pcur.toInt →
    exec .atPlayE s = .refused .storageBaseOutOfRange) ∧
  (∀ (s : State) (k : SlotId), recordBase k (grainPosOf s k) < 0 ∨ 65533 < recordBase k (grainPosOf s k) →
    exec (.grStep k) s = .refused .storageBaseOutOfRange) ∧
  (∀ s : State,
    (recordBase s.slot s.pcur.toInt < 0 ∨ 65533 < recordBase s.slot s.pcur.toInt) ∨
      (recordBase s.slot (grainPosOf s s.slot) < 0 ∨ 65533 < recordBase s.slot (grainPosOf s s.slot)) →
    exec .atPlayG s = .refused .storageBaseOutOfRange ∧
    exec .atPlayF s = .refused .storageBaseOutOfRange)

/-- R183: the starts are valid read cursors, valid cursors name records inside the device and stay valid under the
advance and wraparound; write cursors have the same bound; an empty slot has the origin as its one cursor. -/
def Obligations.ReadCursorsStayValid : Prop :=
  ∀ (k : SlotId) (e : Int), ValidEnd k e →
    (∀ rev, ValidReadCursor k e (startOffset k rev e)) ∧
    (∀ c, ValidReadCursor k e c → 0 ≤ recordBase k c ∧ recordBase k c ≤ 65533 ∧
      ∀ rev, ValidReadCursor k e (wrapCursor k rev e (c + effStep k rev))) ∧
    (∀ c, ValidWriteCursor k c → 0 ≤ recordBase k c ∧ recordBase k c ≤ 65533) ∧
    (extent k e = 0 → ∀ c, ValidReadCursor k e c ↔ c = origin k)

/-- R201, R202, R207: the grain read position and the next window start are valid read cursors whenever the window start
and (under freeze) the anchor are. -/
def Obligations.GrainCursorsStayValid : Prop :=
  ∀ (k : SlotId) (rev : Bool) (e g : Int) (anchor : Option Int), ValidEnd k e → ValidReadCursor k e g →
    (∀ a, anchor = some a → ValidReadCursor k e a) →
    (∀ n : Nat, ValidReadCursor k e (grainPos k rev e g n)) ∧
    (∀ size : Nat, ValidReadCursor k e (grainNext k rev e g size anchor))

/-- R184, R353: with `n` records recorded, forward playback visits every record once in `n` advances and re-seeds; reverse
playback visits records n-1 down to 1 in `max (n-1) 1` advances and re-seeds, and with `n >= 2` omits the record at the
origin. -/
def Obligations.PlaybackLoopCloses : Prop :=
  ∀ (k : SlotId) (e : Int) (n : Nat), distOf k e = 3 * (n : Int) → 1 ≤ n → 3 * n ≤ 65535 →
    (∀ j : Nat, j < n →
      distOf k ((fun c => wrapCursor k false e (c + effStep k false))^[j] (startOffset k false e)) = 3 * (j : Int)) ∧
    (fun c => wrapCursor k false e (c + effStep k false))^[n] (startOffset k false e) = startOffset k false e ∧
    (∀ j : Nat, j < max (n - 1) 1 →
      distOf k ((fun c => wrapCursor k true e (c + effStep k true))^[j] (startOffset k true e)) =
        3 * ((n : Int) - 1 - j)) ∧
    (fun c => wrapCursor k true e (c + effStep k true))^[max (n - 1) 1] (startOffset k true e) =
      startOffset k true e

/-- R182: on the write cursors recording uses, the advance overflows exactly after the last record that fits, and leaves
the cursor at 65535 for an ascending and at 0 for a descending slot. -/
def Obligations.OverflowExactlyAtTheBoundary : Prop :=
  ∀ (k : SlotId) (c : Int), ValidWriteCursor k c →
    (overflow k (c + 3 * sigma k) = true ↔ distOf k c = 65532) ∧
    (distOf k c = 65532 → c + 3 * sigma k = 65535 - origin k)

/-- R86: slots 0 and 2 share bytes, as do 1 and 3: what one writes the other reads, and neither's boundary nor
recorded flag changes. -/
def Obligations.AliasedSlotsShareBytes : Prop :=
  ∀ (s t : State) (c : Cursor) (a b : Sample) (j k : SlotId),
    (j = .slot0 ∧ k = .slot2) ∨ (j = .slot2 ∧ k = .slot0) ∨ (j = .slot1 ∧ k = .slot3) ∨
      (j = .slot3 ∧ k = .slot1) →
    memWf Config.devBytes (deviceOf s (chipOf j)) = true → exec (.mapSw j c a b) s = .next t →
    (∃ r, mappedRead t k c.toInt = some r ∧ r.1 = (a, b)) ∧
      t.endAddr = s.endAddr ∧ t.recorded = s.recorded

/-! ### The control tick -/

/-- R140: a control tick is K1 to K5 in order, each the operation of its row, K3 chosen from the state K2 left;
`FREE_SPACE_OK` is sampled once (R155, log 4). -/
def Obligations.ControlTickRunsFiveSteps : Prop :=
  ∀ s : State, ∃ s1 s2 s3 s4 t : State,
    exec .ctDir s = .next s1 ∧ exec .ctSpg s1 = .next s2 ∧
    exec (selectTransition (sideConds s2) (controlFields s2)).instr s2 = .next s3 ∧
    exec .ctMod { s3 with freeSpace := s.freeSpace.tail } = .next s4 ∧
    exec .ctRate s4 = .next t ∧ exec .ctick s = .next t

/-- R143 (R109, R155): which transition step K3 selects, from `MODE`, the gestures, the elapsed times modulo 2^24, the
free-space guard and the recorded flags. -/
def Obligations.TransitionSelectionFollowsTheTable : Prop :=
  ∀ s : State,
    let record := s.gest.getLsbD 0 = true
    let sel := fun k => s.gest.getLsbD (1 + slotNumber k) = true
    let since := fun t : Word24 => (s.msNow.toNat + 16777216 - t.toNat) % 16777216
    let canRecord := record ∧ (∃ k, sel k ∧ ∀ j, sel j → j = k) ∧ since s.tRecEnd ≥ 20 ∧
      s.freeSpace.headD true = true
    let chosen := selectTransition (sideConds s) (controlFields s)
    (s.mode = .off ∨ s.mode = .passthrough →
      (canRecord → ∀ k, sel k → chosen = .recStart k) ∧
      (¬canRecord → ∀ k, sel k → slotGet s.recorded k = true →
        (∀ j, slotNumber j < slotNumber k → ¬(sel j ∧ slotGet s.recorded j = true)) → chosen = .playStart k) ∧
      (¬canRecord → (∀ k, ¬(sel k ∧ slotGet s.recorded k = true)) → chosen = .none)) ∧
    (s.mode = .record →
      (¬sel s.slot ∧ since s.tRecStart ≥ 20 → chosen = .recStop) ∧
      (¬(¬sel s.slot ∧ since s.tRecStart ≥ 20) → chosen = .none)) ∧
    (s.mode = .recordDone → (¬record → chosen = .recAck) ∧ (record → chosen = .none)) ∧
    (s.mode = .playback → (¬sel s.slot → chosen = .playStop) ∧ (sel s.slot → chosen = .none))

/-- R141, R142, R208: `CT.DIR` copies the reverse gesture to `DIR`; `CT.SPG` computes the window length. R208 has
`REC_RATE >= 1` always; that a `REC_RATE` of 0, which no run holds, gives `SPG` 1 is the model's choice (log 11). -/
def Obligations.DirectionAndWindowLengthAreRecomputed : Prop :=
  ∀ s : State,
    exec .ctDir s = .next { s with dir := s.gest.getLsbD 5 } ∧
    ∃ v : Word24, exec .ctSpg s = .next { s with spg := v } ∧
      v.toNat = min 16777215 (max 1
        (s.stretch.toNat * s.grainSize.toNat * s.rate.toNat / (256 * s.recRate.toNat)))

/-- R144: `CT.RECSTART(k)` seeds the write cursor at the slot's origin, stamps the time and the rates and enters RECORD;
nothing else is written. With `T_REC_END` at its reset value, a record request is refused until `MS_NOW >= 20`. -/
def Obligations.RecordStartSeedsTheWriteCursor : Prop :=
  (∀ (s : State) (k : SlotId), ∃ w : Cursor,
    exec (.ctRecstart k) s = .next { s with
      slot := k, wcur := w, tRecStart := s.msNow, recRate := s.rate, tickRate := s.rate, mode := .record } ∧
    (k = .slot0 ∨ k = .slot2 → w.toInt = 0) ∧ (k = .slot1 ∨ k = .slot3 → w.toInt = 65535)) ∧
  (∀ (s : State) (k : SlotId), s.tRecEnd = 0#24 → s.msNow.toNat < 20 →
    selectTransition (sideConds s) (controlFields s) ≠ .recStart k)

/-- R145, R147, R151: the commit, body of `CT.RECSTOP` and `CT.RECACK`: the boundary and the recorded flag of the active
slot, its three `NV` bytes most significant first, `T_REC_END`, and `MODE`; nothing else. -/
def Obligations.CommitPersistsTheBoundary : Prop :=
  ∀ (s : State) (i : Instr), i = .ctCommit ∨ i = .ctRecstop ∨ i = .ctRecack →
    (let o := 3 * slotNumber s.slot
     let e : Word24 := s.wcur.setWidth 24
     ∃ t : State, exec i s = .next t ∧
      t = { s with
            endAddr := t.endAddr, recorded := t.recorded, nv := t.nv, tRecEnd := s.msNow, mode := .passthrough
            trace := s.trace ++ [.nvWrite o (e.extractLsb' 16 8), .nvWrite (o + 1) (e.extractLsb' 8 8),
              .nvWrite (o + 2) (e.extractLsb' 0 8)] } ∧
      slotGet t.endAddr s.slot = e ∧ slotGet t.recorded s.slot = true ∧
      (0 ≤ s.wcur.toInt → ((slotGet t.endAddr s.slot).toNat : Int) = s.wcur.toInt) ∧
      (∀ k, k ≠ s.slot →
        slotGet t.endAddr k = slotGet s.endAddr k ∧ slotGet t.recorded k = slotGet s.recorded k) ∧
      (∀ a : Nat, a < o ∨ o + 2 < a → memRead t.nv a = memRead s.nv a) ∧
      (memWf Config.nvOffsets s.nv = true → storedEnd t s.slot = e))

/-- R148, R173: `CT.PLAYSTART(k)` seeds `PCUR` and `GADDR` at the direction-appropriate start and resets `GCNT`. -/
def Obligations.PlayStartSeedsTheCursors : Prop :=
  ∀ (s : State) (k : SlotId), ∃ c : Cursor,
    exec (.ctPlaystart k) s = .next { s with
      slot := k, pcur := c, gaddr := c, gcnt := 0#24, mode := .playback } ∧
    (s.dir = false → c = BitVec.ofInt 25 (origin k)) ∧
    (s.dir = true ∧ endOf s k = origin k → c = BitVec.ofInt 25 (origin k)) ∧
    (s.dir = true ∧ endOf s k ≠ origin k → c = BitVec.ofInt 25 (endOf s k - 3 * sigma k))

/-- R149, R150: `CT.PLAYSTOP` writes only `MODE`, `CT.NONE` nothing. -/
def Obligations.PlayStopWritesOnlyTheMode : Prop :=
  ∀ s : State, exec .ctPlaystop s = .next { s with mode := .passthrough } ∧ exec .ctNone s = .next s

/-- R152: `CT.MOD` latches the two modifiers from `MODE` and the gestures, the grain gesture winning, and captures the
anchor and restarts the grain window exactly on the rising edge of freeze. -/
def Obligations.ModifiersAreLatched : Prop :=
  ∀ s : State,
    let g := decide (s.mode = .playback) && s.gest.getLsbD 6
    let f := decide (s.mode = .playback) && s.gest.getLsbD 0 && !s.gest.getLsbD 5 && !s.gest.getLsbD 6
    (f = true ∧ s.freezeAct = false →
      exec .ctMod s = .next { s with
        anchor := s.pcur, gaddr := s.pcur, gcnt := 0#24, grainAct := g, freezeAct := f }) ∧
    (¬(f = true ∧ s.freezeAct = false) →
      exec .ctMod s = .next { s with grainAct := g, freezeAct := f }) ∧
    ¬(g = true ∧ f = true)

/-- R153: `CT.RATE` refreshes `TICK_RATE` in PASSTHROUGH and PLAYBACK and holds it in every other mode. -/
def Obligations.TickRateFollowsRateByMode : Prop :=
  ∀ s : State,
    (s.mode = .passthrough ∨ s.mode = .playback → exec .ctRate s = .next { s with tickRate := s.rate }) ∧
    (s.mode = .off ∨ s.mode = .record ∨ s.mode = .recordDone → exec .ctRate s = .next s)

/-! ### Rules about the whole machine -/

/-- R154: in one step `MODE` changes only along the transitions T1 to T6, or to OFF by a RESET word. -/
def Obligations.ModeChangesOnlyAlongTransitions : Prop :=
  ∀ s t : State, step s = .next t →
    t.mode = s.mode ∨ ModeTransition s.mode t.mode ∨
      (t.mode = .off ∧ ∃ w rest, s.stim = w :: rest ∧ decodeStim w = .reset)

/-- R21: no step but a RESET clears a recorded flag. -/
def Obligations.RecordedFlagsAreNeverClearedAtRunTime : Prop :=
  ∀ s t : State, step s = .next t → (∀ w rest, s.stim = w :: rest → decodeStim w ≠ .reset) →
    ∀ k, slotGet s.recorded k = true → slotGet t.recorded k = true

/-- R21, R77, R151: outside RESET a boundary, a recorded flag or a byte of `NV` changes only in a step that commits: it
leaves RECORD or RECORD_DONE for PASSTHROUGH, and the slot is the active one. -/
def Obligations.BoundariesChangeOnlyInACommit : Prop :=
  ∀ s t : State, step s = .next t → (∀ w rest, s.stim = w :: rest → decodeStim w ≠ .reset) →
    (∀ k, slotGet t.endAddr k ≠ slotGet s.endAddr k ∨ slotGet t.recorded k ≠ slotGet s.recorded k →
      k = s.slot ∧ (s.mode = .record ∨ s.mode = .recordDone) ∧ t.mode = .passthrough) ∧
    (t.nv ≠ s.nv → (s.mode = .record ∨ s.mode = .recordDone) ∧ t.mode = .passthrough)

/-- R79, R260: in one step the storage devices change only by an odd tick in RECORD, and then only in the three bytes
of the record at the write cursor of the active slot. -/
def Obligations.DevicesChangeOnlyByRecording : Prop :=
  ∀ s t : State, step s = .next t → ∀ (c : Chip) (a : Nat),
    memRead (deviceOf t c) a ≠ memRead (deviceOf s c) a →
    s.mode = .record ∧ s.phase = true ∧ c = chipOf s.slot ∧
      (recordBase s.slot s.wcur.toInt).toNat ≤ a ∧ a ≤ (recordBase s.slot s.wcur.toInt).toNat + 2

/-- R317 (R20): what a host write that is neither a control-tick request nor the release of a pending tick may change:
nothing owned by the control tick or the audio tick, no memory, no port. -/
def Obligations.HostWritesTouchOnlyHostRegisters : Prop :=
  ∀ (s t : State) (reg : RegNumber) (d : Word24), exec (.hwr reg d) s = .next t →
    ¬(reg = 0x0F#6 ∧ d.getLsbD 0 = true) → ¬(reg = 0x00#6 ∧ d.getLsbD 0 = true ∧ s.tickPend = true) →
    t = { s with
          tickEn := t.tickEn, ovr := t.ovr, gest := t.gest, msNow := t.msNow, rate := t.rate
          bitres := t.bitres, cutLp := t.cutLp, fbLp := t.fbLp, cutHp := t.cutHp, fbHp := t.fbHp
          grainSize := t.grainSize, stretch := t.stretch }

/-- R348: a descending slot recorded to exhaustion commits boundary 0: recorded at run time, unrecorded after the next
reset. -/
def Obligations.FullDescendingSlotReloadsUnrecorded : Prop :=
  ∀ s : State, s.slot = .slot1 ∨ s.slot = .slot3 → s.wcur = 0#25 → memWf Config.nvOffsets s.nv = true →
    ∃ t u : State, exec .ctRecack s = .next t ∧ exec .reset t = .next u ∧
      slotGet t.recorded s.slot = true ∧ extent s.slot (endOf t s.slot) = 65535 ∧
      slotGet u.recorded s.slot = false

/-- R206 (R202, R203): with the window counter at 0, one full window of `SPG` grain steps moves the window start once,
to `gnext`, and leaves the counter at 0 and the playback cursor alone; forward and without a wrap the start moves
`3 * GRAIN_SIZE` address units. -/
def Obligations.OneGrainWindowMovesTheStartOnce : Prop :=
  ∀ s : State, Invariants s → s.mode = .playback → s.gcnt = 0#24 →
    ∃ t : State, repeatExec (.grStep s.slot) s.spg.toNat s = .next t ∧
      t.gcnt = 0#24 ∧ t.gaddr.toInt = grainNextOf s s.slot ∧ t.pcur = s.pcur ∧
      (s.dir = false → distOf s.slot (s.gaddr.toInt) + 3 * (s.grainSize.toNat : Int) < extent s.slot (endOf s s.slot) →
        distOf s.slot t.gaddr.toInt = distOf s.slot s.gaddr.toInt + 3 * (s.grainSize.toNat : Int))

/-! ### The values of the mapper and the grain window -/

/-- R22, R176, R185: device, orientation, origin and record bytes of every slot, and for both directions its start, its
reset offset, its step and the comparison that re-seeds. -/
def Obligations.AddressTupleOfEverySlot : Prop :=
  ∀ e c : Int,
    (∀ k : SlotId, k = .slot0 ∨ k = .slot2 →
      chipOf k = .a ∧ sigma k = 1 ∧ origin k = 0 ∧ recordBase k c = c ∧
      startOffset k false e = 0 ∧ resetOffset k false e = e ∧ effStep k false = 3 ∧
      (passed k false e c = true ↔ c ≥ e) ∧
      startOffset k true e = (if e = 0 then 0 else e - 3) ∧ resetOffset k true e = 0 ∧ effStep k true = -3 ∧
      (passed k true e c = true ↔ c ≤ 0)) ∧
    (∀ k : SlotId, k = .slot1 ∨ k = .slot3 →
      chipOf k = .b ∧ sigma k = -1 ∧ origin k = 65535 ∧ recordBase k c = c - 2 ∧
      startOffset k false e = 65535 ∧ resetOffset k false e = e ∧ effStep k false = -3 ∧
      (passed k false e c = true ↔ c ≤ e) ∧
      startOffset k true e = (if e = 65535 then 65535 else e + 3) ∧ resetOffset k true e = 65535 ∧
      effStep k true = 3 ∧ (passed k true e c = true ↔ c ≥ 65535))

/-- R201, R202, in distances from the origin: the grain position is the Euclidean remainder by the extent of the window
start moved `GCNT` records in playing order, the origin of an empty slot; the next window start is the window start moved
`GRAIN_SIZE` records in playing order, or, where that reaches or passes the reset boundary, `ANCHOR` under freeze and
otherwise the start of the direction. A negative extent has no remainder (log 16) and no clause. -/
def Obligations.GrainWindowFoldsAndHops : Prop :=
  ∀ (s : State) (k : SlotId),
    let dist := fun c : Int => if k = .slot0 ∨ k = .slot2 then c else 65535 - c
    let ext := dist ((slotGet s.endAddr k).toNat : Int)
    let dsign : Int := if s.dir = true then -1 else 1
    let pos := dist (grainPosOf s k)
    let hop := dist s.gaddr.toInt + dsign * 3 * (s.grainSize.toNat : Int)
    let reached := (s.dir = false ∧ hop ≥ ext) ∨ (s.dir = true ∧ hop ≤ 0)
    (ext = 0 → pos = 0) ∧
    (0 < ext → 0 ≤ pos ∧ pos < ext ∧
      ∃ q : Int, dist s.gaddr.toInt + dsign * 3 * (s.gcnt.toNat : Int) = q * ext + pos) ∧
    (¬reached → dist (grainNextOf s k) = hop) ∧
    (reached ∧ s.freezeAct = true → grainNextOf s k = s.anchor.toInt) ∧
    (reached ∧ s.freezeAct = false ∧ (s.dir = false ∨ ext = 0) → dist (grainNextOf s k) = 0) ∧
    (reached ∧ s.freezeAct = false ∧ s.dir = true ∧ ext ≠ 0 → dist (grainNextOf s k) = ext - 3)
end

