-- ==== Sys2Proof/Laws/Config.lean ====
section
/-! SUPPORT. The parameters of Config.lean against the types and tables built on them, and their numerals. -/

namespace Sys2Proof.Config

/-- The types of Word.lean have the widths of R7. -/
theorem word_widths :
    Sample = BitVec sampleBits ∧ Mix = BitVec sampleBits ∧ Accum = BitVec accBits ∧ Cursor = BitVec curBits ∧
      Word24 = BitVec endBits ∧ Word24 = BitVec cntBits ∧ Word24 = BitVec timeBits :=
  ⟨rfl, rfl, rfl, rfl, rfl, rfl, rfl⟩

/-- There are `N_SLOTS` slots, and the list holds them all. -/
theorem allSlots_nSlots : Machine.allSlots.length = nSlots ∧ ∀ k, k ∈ Machine.allSlots :=
  ⟨rfl, fun k => by cases k <;> decide⟩

/-- There are `N_CHIPS` devices. -/
theorem chips_nChips : [Chip.a, Chip.b].length = nChips ∧ ∀ c, c ∈ [Chip.a, Chip.b] :=
  ⟨rfl, fun c => by cases c <;> decide⟩

/-- The boundary of every slot lies in the `NV_BYTES` bytes used, `END_BITS / 8` bytes a slot. -/
theorem boundary_in_nvBytes (k : SlotId) :
    3 * Machine.slotNumber k + 2 < nvBytes ∧ nvBytes = nSlots * (endBits / 8) ∧ nvBytes ≤ nvOffsets := by
  cases k <;> decide

theorem devBytes_eq : (devBytes : Int) = devTop + 1 := rfl
theorem fracScale_eq : fracScale = 256 := rfl
theorem accSpan_eq : accSpan = 16777216 := rfl
theorem accHalf_eq : accHalf = 8388608 := rfl
theorem spgMax_eq : spgMax = 16777215 := rfl

end Sys2Proof.Config

namespace Sys2Proof.Machine

/-- `wrap24` with its numerals. -/
theorem wrap24_eq (x : Int) : wrap24 x = (x + 8388608) % 16777216 - 8388608 := rfl

/-- What the fold of R201 is on an extent that is not negative; on a negative one nothing is known of it. -/
theorem foldIntoExtent_of_nonneg {e : Int} (h : 0 ≤ e) (u : Int) :
    foldIntoExtent u e = if e = 0 then 0 else u % e := by
  unfold foldIntoExtent
  split
  · rfl
  · rw [if_pos (by omega)]

/-- The folded distance lies inside a positive extent and is 0 in an empty one. -/
theorem foldIntoExtent_bounds {e : Int} (h : 0 ≤ e) (u : Int) :
    0 ≤ foldIntoExtent u e ∧ foldIntoExtent u e < max e 1 := by
  rw [foldIntoExtent_of_nonneg h]
  split
  · omega
  · exact ⟨Int.emod_nonneg _ ‹_›, lt_of_lt_of_le (Int.emod_lt_of_pos _ (by omega)) (le_max_left _ _)⟩

/-- The numerals of the narrowing to a cursor register. -/
theorem toCursor_width (x : Int) : (BitVec.ofInt Config.curBits x : Cursor) = BitVec.ofInt 25 x := rfl

end Sys2Proof.Machine
end

