-- ==== Sys2Proof/Laws/State.lean ====
section
/-! SUPPORT. What each named update does to each field of the state: one lemma a field, so that no later proof
unfolds a record update. Where an update depends on a condition, only the fields it never writes are listed. -/

namespace Sys2Proof.Machine

variable (s : State)

/-! ### logEvent -/

@[simp] theorem logEvent_mode (e : PortEvent) : (logEvent s e).mode = s.mode := rfl
@[simp] theorem logEvent_phase (e : PortEvent) : (logEvent s e).phase = s.phase := rfl
@[simp] theorem logEvent_dir (e : PortEvent) : (logEvent s e).dir = s.dir := rfl
@[simp] theorem logEvent_slot (e : PortEvent) : (logEvent s e).slot = s.slot := rfl
@[simp] theorem logEvent_pcur (e : PortEvent) : (logEvent s e).pcur = s.pcur := rfl
@[simp] theorem logEvent_wcur (e : PortEvent) : (logEvent s e).wcur = s.wcur := rfl
@[simp] theorem logEvent_gaddr (e : PortEvent) : (logEvent s e).gaddr = s.gaddr := rfl
@[simp] theorem logEvent_gcnt (e : PortEvent) : (logEvent s e).gcnt = s.gcnt := rfl
@[simp] theorem logEvent_spg (e : PortEvent) : (logEvent s e).spg = s.spg := rfl
@[simp] theorem logEvent_grainAct (e : PortEvent) : (logEvent s e).grainAct = s.grainAct := rfl
@[simp] theorem logEvent_freezeAct (e : PortEvent) : (logEvent s e).freezeAct = s.freezeAct := rfl
@[simp] theorem logEvent_anchor (e : PortEvent) : (logEvent s e).anchor = s.anchor := rfl
@[simp] theorem logEvent_endAddr (e : PortEvent) : (logEvent s e).endAddr = s.endAddr := rfl
@[simp] theorem logEvent_recorded (e : PortEvent) : (logEvent s e).recorded = s.recorded := rfl
@[simp] theorem logEvent_inSample (e : PortEvent) : (logEvent s e).inSample = s.inSample := rfl
@[simp] theorem logEvent_rbuf (e : PortEvent) : (logEvent s e).rbuf = s.rbuf := rfl
@[simp] theorem logEvent_d0 (e : PortEvent) : (logEvent s e).d0 = s.d0 := rfl
@[simp] theorem logEvent_d1 (e : PortEvent) : (logEvent s e).d1 = s.d1 := rfl
@[simp] theorem logEvent_mix (e : PortEvent) : (logEvent s e).mix = s.mix := rfl
@[simp] theorem logEvent_outSample (e : PortEvent) : (logEvent s e).outSample = s.outSample := rfl
@[simp] theorem logEvent_tout (e : PortEvent) : (logEvent s e).tout = s.tout := rfl
@[simp] theorem logEvent_lpBuf0 (e : PortEvent) : (logEvent s e).lpBuf0 = s.lpBuf0 := rfl
@[simp] theorem logEvent_lpBuf1 (e : PortEvent) : (logEvent s e).lpBuf1 = s.lpBuf1 := rfl
@[simp] theorem logEvent_hpBuf0 (e : PortEvent) : (logEvent s e).hpBuf0 = s.hpBuf0 := rfl
@[simp] theorem logEvent_hpBuf1 (e : PortEvent) : (logEvent s e).hpBuf1 = s.hpBuf1 := rfl
@[simp] theorem logEvent_cutLp (e : PortEvent) : (logEvent s e).cutLp = s.cutLp := rfl
@[simp] theorem logEvent_fbLp (e : PortEvent) : (logEvent s e).fbLp = s.fbLp := rfl
@[simp] theorem logEvent_cutHp (e : PortEvent) : (logEvent s e).cutHp = s.cutHp := rfl
@[simp] theorem logEvent_fbHp (e : PortEvent) : (logEvent s e).fbHp = s.fbHp := rfl
@[simp] theorem logEvent_rate (e : PortEvent) : (logEvent s e).rate = s.rate := rfl
@[simp] theorem logEvent_bitres (e : PortEvent) : (logEvent s e).bitres = s.bitres := rfl
@[simp] theorem logEvent_grainSize (e : PortEvent) : (logEvent s e).grainSize = s.grainSize := rfl
@[simp] theorem logEvent_stretch (e : PortEvent) : (logEvent s e).stretch = s.stretch := rfl
@[simp] theorem logEvent_gest (e : PortEvent) : (logEvent s e).gest = s.gest := rfl
@[simp] theorem logEvent_msNow (e : PortEvent) : (logEvent s e).msNow = s.msNow := rfl
@[simp] theorem logEvent_tRecStart (e : PortEvent) : (logEvent s e).tRecStart = s.tRecStart := rfl
@[simp] theorem logEvent_tRecEnd (e : PortEvent) : (logEvent s e).tRecEnd = s.tRecEnd := rfl
@[simp] theorem logEvent_recRate (e : PortEvent) : (logEvent s e).recRate = s.recRate := rfl
@[simp] theorem logEvent_tickRate (e : PortEvent) : (logEvent s e).tickRate = s.tickRate := rfl
@[simp] theorem logEvent_tickEn (e : PortEvent) : (logEvent s e).tickEn = s.tickEn := rfl
@[simp] theorem logEvent_ovr (e : PortEvent) : (logEvent s e).ovr = s.ovr := rfl
@[simp] theorem logEvent_tickPend (e : PortEvent) : (logEvent s e).tickPend = s.tickPend := rfl
@[simp] theorem logEvent_storeA (e : PortEvent) : (logEvent s e).storeA = s.storeA := rfl
@[simp] theorem logEvent_storeB (e : PortEvent) : (logEvent s e).storeB = s.storeB := rfl
@[simp] theorem logEvent_nv (e : PortEvent) : (logEvent s e).nv = s.nv := rfl
@[simp] theorem logEvent_ain (e : PortEvent) : (logEvent s e).ain = s.ain := rfl
@[simp] theorem logEvent_freeSpace (e : PortEvent) : (logEvent s e).freeSpace = s.freeSpace := rfl
@[simp] theorem logEvent_stim (e : PortEvent) : (logEvent s e).stim = s.stim := rfl
@[simp] theorem logEvent_trace (e : PortEvent) : (logEvent s e).trace = s.trace ++ [e] := rfl

/-! ### emitOutput -/

@[simp] theorem emitOutput_mode : (emitOutput s).mode = s.mode := rfl
@[simp] theorem emitOutput_phase : (emitOutput s).phase = s.phase := rfl
@[simp] theorem emitOutput_dir : (emitOutput s).dir = s.dir := rfl
@[simp] theorem emitOutput_slot : (emitOutput s).slot = s.slot := rfl
@[simp] theorem emitOutput_pcur : (emitOutput s).pcur = s.pcur := rfl
@[simp] theorem emitOutput_wcur : (emitOutput s).wcur = s.wcur := rfl
@[simp] theorem emitOutput_gaddr : (emitOutput s).gaddr = s.gaddr := rfl
@[simp] theorem emitOutput_gcnt : (emitOutput s).gcnt = s.gcnt := rfl
@[simp] theorem emitOutput_spg : (emitOutput s).spg = s.spg := rfl
@[simp] theorem emitOutput_grainAct : (emitOutput s).grainAct = s.grainAct := rfl
@[simp] theorem emitOutput_freezeAct : (emitOutput s).freezeAct = s.freezeAct := rfl
@[simp] theorem emitOutput_anchor : (emitOutput s).anchor = s.anchor := rfl
@[simp] theorem emitOutput_endAddr : (emitOutput s).endAddr = s.endAddr := rfl
@[simp] theorem emitOutput_recorded : (emitOutput s).recorded = s.recorded := rfl
@[simp] theorem emitOutput_inSample : (emitOutput s).inSample = s.inSample := rfl
@[simp] theorem emitOutput_rbuf : (emitOutput s).rbuf = s.rbuf := rfl
@[simp] theorem emitOutput_d0 : (emitOutput s).d0 = s.d0 := rfl
@[simp] theorem emitOutput_d1 : (emitOutput s).d1 = s.d1 := rfl
@[simp] theorem emitOutput_mix : (emitOutput s).mix = s.mix := rfl
@[simp] theorem emitOutput_outSample : (emitOutput s).outSample = s.outSample := rfl
@[simp] theorem emitOutput_tout : (emitOutput s).tout = s.tout := rfl
@[simp] theorem emitOutput_lpBuf0 : (emitOutput s).lpBuf0 = s.lpBuf0 := rfl
@[simp] theorem emitOutput_lpBuf1 : (emitOutput s).lpBuf1 = s.lpBuf1 := rfl
@[simp] theorem emitOutput_hpBuf0 : (emitOutput s).hpBuf0 = s.hpBuf0 := rfl
@[simp] theorem emitOutput_hpBuf1 : (emitOutput s).hpBuf1 = s.hpBuf1 := rfl
@[simp] theorem emitOutput_cutLp : (emitOutput s).cutLp = s.cutLp := rfl
@[simp] theorem emitOutput_fbLp : (emitOutput s).fbLp = s.fbLp := rfl
@[simp] theorem emitOutput_cutHp : (emitOutput s).cutHp = s.cutHp := rfl
@[simp] theorem emitOutput_fbHp : (emitOutput s).fbHp = s.fbHp := rfl
@[simp] theorem emitOutput_rate : (emitOutput s).rate = s.rate := rfl
@[simp] theorem emitOutput_bitres : (emitOutput s).bitres = s.bitres := rfl
@[simp] theorem emitOutput_grainSize : (emitOutput s).grainSize = s.grainSize := rfl
@[simp] theorem emitOutput_stretch : (emitOutput s).stretch = s.stretch := rfl
@[simp] theorem emitOutput_gest : (emitOutput s).gest = s.gest := rfl
@[simp] theorem emitOutput_msNow : (emitOutput s).msNow = s.msNow := rfl
@[simp] theorem emitOutput_tRecStart : (emitOutput s).tRecStart = s.tRecStart := rfl
@[simp] theorem emitOutput_tRecEnd : (emitOutput s).tRecEnd = s.tRecEnd := rfl
@[simp] theorem emitOutput_recRate : (emitOutput s).recRate = s.recRate := rfl
@[simp] theorem emitOutput_tickRate : (emitOutput s).tickRate = s.tickRate := rfl
@[simp] theorem emitOutput_tickEn : (emitOutput s).tickEn = s.tickEn := rfl
@[simp] theorem emitOutput_ovr : (emitOutput s).ovr = s.ovr := rfl
@[simp] theorem emitOutput_tickPend : (emitOutput s).tickPend = s.tickPend := rfl
@[simp] theorem emitOutput_storeA : (emitOutput s).storeA = s.storeA := rfl
@[simp] theorem emitOutput_storeB : (emitOutput s).storeB = s.storeB := rfl
@[simp] theorem emitOutput_nv : (emitOutput s).nv = s.nv := rfl
@[simp] theorem emitOutput_ain : (emitOutput s).ain = s.ain := rfl
@[simp] theorem emitOutput_freeSpace : (emitOutput s).freeSpace = s.freeSpace := rfl
@[simp] theorem emitOutput_stim : (emitOutput s).stim = s.stim := rfl
@[simp] theorem emitOutput_trace : (emitOutput s).trace = s.trace ++ [.dac s.outSample] := rfl

/-! ### sampleInput -/

@[simp] theorem sampleInput_mode : (sampleInput s).mode = s.mode := rfl
@[simp] theorem sampleInput_phase : (sampleInput s).phase = s.phase := rfl
@[simp] theorem sampleInput_dir : (sampleInput s).dir = s.dir := rfl
@[simp] theorem sampleInput_slot : (sampleInput s).slot = s.slot := rfl
@[simp] theorem sampleInput_pcur : (sampleInput s).pcur = s.pcur := rfl
@[simp] theorem sampleInput_wcur : (sampleInput s).wcur = s.wcur := rfl
@[simp] theorem sampleInput_gaddr : (sampleInput s).gaddr = s.gaddr := rfl
@[simp] theorem sampleInput_gcnt : (sampleInput s).gcnt = s.gcnt := rfl
@[simp] theorem sampleInput_spg : (sampleInput s).spg = s.spg := rfl
@[simp] theorem sampleInput_grainAct : (sampleInput s).grainAct = s.grainAct := rfl
@[simp] theorem sampleInput_freezeAct : (sampleInput s).freezeAct = s.freezeAct := rfl
@[simp] theorem sampleInput_anchor : (sampleInput s).anchor = s.anchor := rfl
@[simp] theorem sampleInput_endAddr : (sampleInput s).endAddr = s.endAddr := rfl
@[simp] theorem sampleInput_recorded : (sampleInput s).recorded = s.recorded := rfl
@[simp] theorem sampleInput_inSample : (sampleInput s).inSample = s.ain := rfl
@[simp] theorem sampleInput_rbuf : (sampleInput s).rbuf = s.rbuf := rfl
@[simp] theorem sampleInput_d0 : (sampleInput s).d0 = s.d0 := rfl
@[simp] theorem sampleInput_d1 : (sampleInput s).d1 = s.d1 := rfl
@[simp] theorem sampleInput_mix : (sampleInput s).mix = s.mix := rfl
@[simp] theorem sampleInput_outSample : (sampleInput s).outSample = s.outSample := rfl
@[simp] theorem sampleInput_tout : (sampleInput s).tout = s.tout := rfl
@[simp] theorem sampleInput_lpBuf0 : (sampleInput s).lpBuf0 = s.lpBuf0 := rfl
@[simp] theorem sampleInput_lpBuf1 : (sampleInput s).lpBuf1 = s.lpBuf1 := rfl
@[simp] theorem sampleInput_hpBuf0 : (sampleInput s).hpBuf0 = s.hpBuf0 := rfl
@[simp] theorem sampleInput_hpBuf1 : (sampleInput s).hpBuf1 = s.hpBuf1 := rfl
@[simp] theorem sampleInput_cutLp : (sampleInput s).cutLp = s.cutLp := rfl
@[simp] theorem sampleInput_fbLp : (sampleInput s).fbLp = s.fbLp := rfl
@[simp] theorem sampleInput_cutHp : (sampleInput s).cutHp = s.cutHp := rfl
@[simp] theorem sampleInput_fbHp : (sampleInput s).fbHp = s.fbHp := rfl
@[simp] theorem sampleInput_rate : (sampleInput s).rate = s.rate := rfl
@[simp] theorem sampleInput_bitres : (sampleInput s).bitres = s.bitres := rfl
@[simp] theorem sampleInput_grainSize : (sampleInput s).grainSize = s.grainSize := rfl
@[simp] theorem sampleInput_stretch : (sampleInput s).stretch = s.stretch := rfl
@[simp] theorem sampleInput_gest : (sampleInput s).gest = s.gest := rfl
@[simp] theorem sampleInput_msNow : (sampleInput s).msNow = s.msNow := rfl
@[simp] theorem sampleInput_tRecStart : (sampleInput s).tRecStart = s.tRecStart := rfl
@[simp] theorem sampleInput_tRecEnd : (sampleInput s).tRecEnd = s.tRecEnd := rfl
@[simp] theorem sampleInput_recRate : (sampleInput s).recRate = s.recRate := rfl
@[simp] theorem sampleInput_tickRate : (sampleInput s).tickRate = s.tickRate := rfl
@[simp] theorem sampleInput_tickEn : (sampleInput s).tickEn = s.tickEn := rfl
@[simp] theorem sampleInput_ovr : (sampleInput s).ovr = s.ovr := rfl
@[simp] theorem sampleInput_tickPend : (sampleInput s).tickPend = s.tickPend := rfl
@[simp] theorem sampleInput_storeA : (sampleInput s).storeA = s.storeA := rfl
@[simp] theorem sampleInput_storeB : (sampleInput s).storeB = s.storeB := rfl
@[simp] theorem sampleInput_nv : (sampleInput s).nv = s.nv := rfl
@[simp] theorem sampleInput_ain : (sampleInput s).ain = s.ain := rfl
@[simp] theorem sampleInput_freeSpace : (sampleInput s).freeSpace = s.freeSpace := rfl
@[simp] theorem sampleInput_stim : (sampleInput s).stim = s.stim := rfl
@[simp] theorem sampleInput_trace : (sampleInput s).trace = s.trace ++ [.adc s.ain] := rfl

/-! ### nvWrite -/

@[simp] theorem nvWrite_mode (o : Nat) (y : Byte) : (nvWrite s o y).mode = s.mode := rfl
@[simp] theorem nvWrite_phase (o : Nat) (y : Byte) : (nvWrite s o y).phase = s.phase := rfl
@[simp] theorem nvWrite_dir (o : Nat) (y : Byte) : (nvWrite s o y).dir = s.dir := rfl
@[simp] theorem nvWrite_slot (o : Nat) (y : Byte) : (nvWrite s o y).slot = s.slot := rfl
@[simp] theorem nvWrite_pcur (o : Nat) (y : Byte) : (nvWrite s o y).pcur = s.pcur := rfl
@[simp] theorem nvWrite_wcur (o : Nat) (y : Byte) : (nvWrite s o y).wcur = s.wcur := rfl
@[simp] theorem nvWrite_gaddr (o : Nat) (y : Byte) : (nvWrite s o y).gaddr = s.gaddr := rfl
@[simp] theorem nvWrite_gcnt (o : Nat) (y : Byte) : (nvWrite s o y).gcnt = s.gcnt := rfl
@[simp] theorem nvWrite_spg (o : Nat) (y : Byte) : (nvWrite s o y).spg = s.spg := rfl
@[simp] theorem nvWrite_grainAct (o : Nat) (y : Byte) : (nvWrite s o y).grainAct = s.grainAct := rfl
@[simp] theorem nvWrite_freezeAct (o : Nat) (y : Byte) : (nvWrite s o y).freezeAct = s.freezeAct := rfl
@[simp] theorem nvWrite_anchor (o : Nat) (y : Byte) : (nvWrite s o y).anchor = s.anchor := rfl
@[simp] theorem nvWrite_endAddr (o : Nat) (y : Byte) : (nvWrite s o y).endAddr = s.endAddr := rfl
@[simp] theorem nvWrite_recorded (o : Nat) (y : Byte) : (nvWrite s o y).recorded = s.recorded := rfl
@[simp] theorem nvWrite_inSample (o : Nat) (y : Byte) : (nvWrite s o y).inSample = s.inSample := rfl
@[simp] theorem nvWrite_rbuf (o : Nat) (y : Byte) : (nvWrite s o y).rbuf = s.rbuf := rfl
@[simp] theorem nvWrite_d0 (o : Nat) (y : Byte) : (nvWrite s o y).d0 = s.d0 := rfl
@[simp] theorem nvWrite_d1 (o : Nat) (y : Byte) : (nvWrite s o y).d1 = s.d1 := rfl
@[simp] theorem nvWrite_mix (o : Nat) (y : Byte) : (nvWrite s o y).mix = s.mix := rfl
@[simp] theorem nvWrite_outSample (o : Nat) (y : Byte) : (nvWrite s o y).outSample = s.outSample := rfl
@[simp] theorem nvWrite_tout (o : Nat) (y : Byte) : (nvWrite s o y).tout = s.tout := rfl
@[simp] theorem nvWrite_lpBuf0 (o : Nat) (y : Byte) : (nvWrite s o y).lpBuf0 = s.lpBuf0 := rfl
@[simp] theorem nvWrite_lpBuf1 (o : Nat) (y : Byte) : (nvWrite s o y).lpBuf1 = s.lpBuf1 := rfl
@[simp] theorem nvWrite_hpBuf0 (o : Nat) (y : Byte) : (nvWrite s o y).hpBuf0 = s.hpBuf0 := rfl
@[simp] theorem nvWrite_hpBuf1 (o : Nat) (y : Byte) : (nvWrite s o y).hpBuf1 = s.hpBuf1 := rfl
@[simp] theorem nvWrite_cutLp (o : Nat) (y : Byte) : (nvWrite s o y).cutLp = s.cutLp := rfl
@[simp] theorem nvWrite_fbLp (o : Nat) (y : Byte) : (nvWrite s o y).fbLp = s.fbLp := rfl
@[simp] theorem nvWrite_cutHp (o : Nat) (y : Byte) : (nvWrite s o y).cutHp = s.cutHp := rfl
@[simp] theorem nvWrite_fbHp (o : Nat) (y : Byte) : (nvWrite s o y).fbHp = s.fbHp := rfl
@[simp] theorem nvWrite_rate (o : Nat) (y : Byte) : (nvWrite s o y).rate = s.rate := rfl
@[simp] theorem nvWrite_bitres (o : Nat) (y : Byte) : (nvWrite s o y).bitres = s.bitres := rfl
@[simp] theorem nvWrite_grainSize (o : Nat) (y : Byte) : (nvWrite s o y).grainSize = s.grainSize := rfl
@[simp] theorem nvWrite_stretch (o : Nat) (y : Byte) : (nvWrite s o y).stretch = s.stretch := rfl
@[simp] theorem nvWrite_gest (o : Nat) (y : Byte) : (nvWrite s o y).gest = s.gest := rfl
@[simp] theorem nvWrite_msNow (o : Nat) (y : Byte) : (nvWrite s o y).msNow = s.msNow := rfl
@[simp] theorem nvWrite_tRecStart (o : Nat) (y : Byte) : (nvWrite s o y).tRecStart = s.tRecStart := rfl
@[simp] theorem nvWrite_tRecEnd (o : Nat) (y : Byte) : (nvWrite s o y).tRecEnd = s.tRecEnd := rfl
@[simp] theorem nvWrite_recRate (o : Nat) (y : Byte) : (nvWrite s o y).recRate = s.recRate := rfl
@[simp] theorem nvWrite_tickRate (o : Nat) (y : Byte) : (nvWrite s o y).tickRate = s.tickRate := rfl
@[simp] theorem nvWrite_tickEn (o : Nat) (y : Byte) : (nvWrite s o y).tickEn = s.tickEn := rfl
@[simp] theorem nvWrite_ovr (o : Nat) (y : Byte) : (nvWrite s o y).ovr = s.ovr := rfl
@[simp] theorem nvWrite_tickPend (o : Nat) (y : Byte) : (nvWrite s o y).tickPend = s.tickPend := rfl
@[simp] theorem nvWrite_storeA (o : Nat) (y : Byte) : (nvWrite s o y).storeA = s.storeA := rfl
@[simp] theorem nvWrite_storeB (o : Nat) (y : Byte) : (nvWrite s o y).storeB = s.storeB := rfl
@[simp] theorem nvWrite_nv (o : Nat) (y : Byte) : (nvWrite s o y).nv = memWrite s.nv o y := rfl
@[simp] theorem nvWrite_ain (o : Nat) (y : Byte) : (nvWrite s o y).ain = s.ain := rfl
@[simp] theorem nvWrite_freeSpace (o : Nat) (y : Byte) : (nvWrite s o y).freeSpace = s.freeSpace := rfl
@[simp] theorem nvWrite_stim (o : Nat) (y : Byte) : (nvWrite s o y).stim = s.stim := rfl
@[simp] theorem nvWrite_trace (o : Nat) (y : Byte) : (nvWrite s o y).trace = s.trace ++ [.nvWrite o y] := rfl

/-! ### nvRead -/

@[simp] theorem nvRead_mode (o : Nat) : (nvRead s o).mode = s.mode := rfl
@[simp] theorem nvRead_phase (o : Nat) : (nvRead s o).phase = s.phase := rfl
@[simp] theorem nvRead_dir (o : Nat) : (nvRead s o).dir = s.dir := rfl
@[simp] theorem nvRead_slot (o : Nat) : (nvRead s o).slot = s.slot := rfl
@[simp] theorem nvRead_pcur (o : Nat) : (nvRead s o).pcur = s.pcur := rfl
@[simp] theorem nvRead_wcur (o : Nat) : (nvRead s o).wcur = s.wcur := rfl
@[simp] theorem nvRead_gaddr (o : Nat) : (nvRead s o).gaddr = s.gaddr := rfl
@[simp] theorem nvRead_gcnt (o : Nat) : (nvRead s o).gcnt = s.gcnt := rfl
@[simp] theorem nvRead_spg (o : Nat) : (nvRead s o).spg = s.spg := rfl
@[simp] theorem nvRead_grainAct (o : Nat) : (nvRead s o).grainAct = s.grainAct := rfl
@[simp] theorem nvRead_freezeAct (o : Nat) : (nvRead s o).freezeAct = s.freezeAct := rfl
@[simp] theorem nvRead_anchor (o : Nat) : (nvRead s o).anchor = s.anchor := rfl
@[simp] theorem nvRead_endAddr (o : Nat) : (nvRead s o).endAddr = s.endAddr := rfl
@[simp] theorem nvRead_recorded (o : Nat) : (nvRead s o).recorded = s.recorded := rfl
@[simp] theorem nvRead_inSample (o : Nat) : (nvRead s o).inSample = s.inSample := rfl
@[simp] theorem nvRead_rbuf (o : Nat) : (nvRead s o).rbuf = s.rbuf := rfl
@[simp] theorem nvRead_d0 (o : Nat) : (nvRead s o).d0 = s.d0 := rfl
@[simp] theorem nvRead_d1 (o : Nat) : (nvRead s o).d1 = s.d1 := rfl
@[simp] theorem nvRead_mix (o : Nat) : (nvRead s o).mix = s.mix := rfl
@[simp] theorem nvRead_outSample (o : Nat) : (nvRead s o).outSample = s.outSample := rfl
@[simp] theorem nvRead_tout (o : Nat) : (nvRead s o).tout = s.tout := rfl
@[simp] theorem nvRead_lpBuf0 (o : Nat) : (nvRead s o).lpBuf0 = s.lpBuf0 := rfl
@[simp] theorem nvRead_lpBuf1 (o : Nat) : (nvRead s o).lpBuf1 = s.lpBuf1 := rfl
@[simp] theorem nvRead_hpBuf0 (o : Nat) : (nvRead s o).hpBuf0 = s.hpBuf0 := rfl
@[simp] theorem nvRead_hpBuf1 (o : Nat) : (nvRead s o).hpBuf1 = s.hpBuf1 := rfl
@[simp] theorem nvRead_cutLp (o : Nat) : (nvRead s o).cutLp = s.cutLp := rfl
@[simp] theorem nvRead_fbLp (o : Nat) : (nvRead s o).fbLp = s.fbLp := rfl
@[simp] theorem nvRead_cutHp (o : Nat) : (nvRead s o).cutHp = s.cutHp := rfl
@[simp] theorem nvRead_fbHp (o : Nat) : (nvRead s o).fbHp = s.fbHp := rfl
@[simp] theorem nvRead_rate (o : Nat) : (nvRead s o).rate = s.rate := rfl
@[simp] theorem nvRead_bitres (o : Nat) : (nvRead s o).bitres = s.bitres := rfl
@[simp] theorem nvRead_grainSize (o : Nat) : (nvRead s o).grainSize = s.grainSize := rfl
@[simp] theorem nvRead_stretch (o : Nat) : (nvRead s o).stretch = s.stretch := rfl
@[simp] theorem nvRead_gest (o : Nat) : (nvRead s o).gest = s.gest := rfl
@[simp] theorem nvRead_msNow (o : Nat) : (nvRead s o).msNow = s.msNow := rfl
@[simp] theorem nvRead_tRecStart (o : Nat) : (nvRead s o).tRecStart = s.tRecStart := rfl
@[simp] theorem nvRead_tRecEnd (o : Nat) : (nvRead s o).tRecEnd = s.tRecEnd := rfl
@[simp] theorem nvRead_recRate (o : Nat) : (nvRead s o).recRate = s.recRate := rfl
@[simp] theorem nvRead_tickRate (o : Nat) : (nvRead s o).tickRate = s.tickRate := rfl
@[simp] theorem nvRead_tickEn (o : Nat) : (nvRead s o).tickEn = s.tickEn := rfl
@[simp] theorem nvRead_ovr (o : Nat) : (nvRead s o).ovr = s.ovr := rfl
@[simp] theorem nvRead_tickPend (o : Nat) : (nvRead s o).tickPend = s.tickPend := rfl
@[simp] theorem nvRead_storeA (o : Nat) : (nvRead s o).storeA = s.storeA := rfl
@[simp] theorem nvRead_storeB (o : Nat) : (nvRead s o).storeB = s.storeB := rfl
@[simp] theorem nvRead_nv (o : Nat) : (nvRead s o).nv = s.nv := rfl
@[simp] theorem nvRead_ain (o : Nat) : (nvRead s o).ain = s.ain := rfl
@[simp] theorem nvRead_freeSpace (o : Nat) : (nvRead s o).freeSpace = s.freeSpace := rfl
@[simp] theorem nvRead_stim (o : Nat) : (nvRead s o).stim = s.stim := rfl
@[simp] theorem nvRead_trace (o : Nat) : (nvRead s o).trace = s.trace ++ [.nvRead o (nvByte s o)] := rfl

/-! ### withDevice -/

@[simp] theorem withDevice_mode (c : Chip) (m : Memory) : (withDevice s c m).mode = s.mode := by cases c <;> rfl
@[simp] theorem withDevice_phase (c : Chip) (m : Memory) : (withDevice s c m).phase = s.phase := by cases c <;> rfl
@[simp] theorem withDevice_dir (c : Chip) (m : Memory) : (withDevice s c m).dir = s.dir := by cases c <;> rfl
@[simp] theorem withDevice_slot (c : Chip) (m : Memory) : (withDevice s c m).slot = s.slot := by cases c <;> rfl
@[simp] theorem withDevice_pcur (c : Chip) (m : Memory) : (withDevice s c m).pcur = s.pcur := by cases c <;> rfl
@[simp] theorem withDevice_wcur (c : Chip) (m : Memory) : (withDevice s c m).wcur = s.wcur := by cases c <;> rfl
@[simp] theorem withDevice_gaddr (c : Chip) (m : Memory) : (withDevice s c m).gaddr = s.gaddr := by cases c <;> rfl
@[simp] theorem withDevice_gcnt (c : Chip) (m : Memory) : (withDevice s c m).gcnt = s.gcnt := by cases c <;> rfl
@[simp] theorem withDevice_spg (c : Chip) (m : Memory) : (withDevice s c m).spg = s.spg := by cases c <;> rfl
@[simp] theorem withDevice_grainAct (c : Chip) (m : Memory) : (withDevice s c m).grainAct = s.grainAct := by cases c <;> rfl
@[simp] theorem withDevice_freezeAct (c : Chip) (m : Memory) : (withDevice s c m).freezeAct = s.freezeAct := by cases c <;> rfl
@[simp] theorem withDevice_anchor (c : Chip) (m : Memory) : (withDevice s c m).anchor = s.anchor := by cases c <;> rfl
@[simp] theorem withDevice_endAddr (c : Chip) (m : Memory) : (withDevice s c m).endAddr = s.endAddr := by cases c <;> rfl
@[simp] theorem withDevice_recorded (c : Chip) (m : Memory) : (withDevice s c m).recorded = s.recorded := by cases c <;> rfl
@[simp] theorem withDevice_inSample (c : Chip) (m : Memory) : (withDevice s c m).inSample = s.inSample := by cases c <;> rfl
@[simp] theorem withDevice_rbuf (c : Chip) (m : Memory) : (withDevice s c m).rbuf = s.rbuf := by cases c <;> rfl
@[simp] theorem withDevice_d0 (c : Chip) (m : Memory) : (withDevice s c m).d0 = s.d0 := by cases c <;> rfl
@[simp] theorem withDevice_d1 (c : Chip) (m : Memory) : (withDevice s c m).d1 = s.d1 := by cases c <;> rfl
@[simp] theorem withDevice_mix (c : Chip) (m : Memory) : (withDevice s c m).mix = s.mix := by cases c <;> rfl
@[simp] theorem withDevice_outSample (c : Chip) (m : Memory) : (withDevice s c m).outSample = s.outSample := by cases c <;> rfl
@[simp] theorem withDevice_tout (c : Chip) (m : Memory) : (withDevice s c m).tout = s.tout := by cases c <;> rfl
@[simp] theorem withDevice_lpBuf0 (c : Chip) (m : Memory) : (withDevice s c m).lpBuf0 = s.lpBuf0 := by cases c <;> rfl
@[simp] theorem withDevice_lpBuf1 (c : Chip) (m : Memory) : (withDevice s c m).lpBuf1 = s.lpBuf1 := by cases c <;> rfl
@[simp] theorem withDevice_hpBuf0 (c : Chip) (m : Memory) : (withDevice s c m).hpBuf0 = s.hpBuf0 := by cases c <;> rfl
@[simp] theorem withDevice_hpBuf1 (c : Chip) (m : Memory) : (withDevice s c m).hpBuf1 = s.hpBuf1 := by cases c <;> rfl
@[simp] theorem withDevice_cutLp (c : Chip) (m : Memory) : (withDevice s c m).cutLp = s.cutLp := by cases c <;> rfl
@[simp] theorem withDevice_fbLp (c : Chip) (m : Memory) : (withDevice s c m).fbLp = s.fbLp := by cases c <;> rfl
@[simp] theorem withDevice_cutHp (c : Chip) (m : Memory) : (withDevice s c m).cutHp = s.cutHp := by cases c <;> rfl
@[simp] theorem withDevice_fbHp (c : Chip) (m : Memory) : (withDevice s c m).fbHp = s.fbHp := by cases c <;> rfl
@[simp] theorem withDevice_rate (c : Chip) (m : Memory) : (withDevice s c m).rate = s.rate := by cases c <;> rfl
@[simp] theorem withDevice_bitres (c : Chip) (m : Memory) : (withDevice s c m).bitres = s.bitres := by cases c <;> rfl
@[simp] theorem withDevice_grainSize (c : Chip) (m : Memory) : (withDevice s c m).grainSize = s.grainSize := by cases c <;> rfl
@[simp] theorem withDevice_stretch (c : Chip) (m : Memory) : (withDevice s c m).stretch = s.stretch := by cases c <;> rfl
@[simp] theorem withDevice_gest (c : Chip) (m : Memory) : (withDevice s c m).gest = s.gest := by cases c <;> rfl
@[simp] theorem withDevice_msNow (c : Chip) (m : Memory) : (withDevice s c m).msNow = s.msNow := by cases c <;> rfl
@[simp] theorem withDevice_tRecStart (c : Chip) (m : Memory) : (withDevice s c m).tRecStart = s.tRecStart := by cases c <;> rfl
@[simp] theorem withDevice_tRecEnd (c : Chip) (m : Memory) : (withDevice s c m).tRecEnd = s.tRecEnd := by cases c <;> rfl
@[simp] theorem withDevice_recRate (c : Chip) (m : Memory) : (withDevice s c m).recRate = s.recRate := by cases c <;> rfl
@[simp] theorem withDevice_tickRate (c : Chip) (m : Memory) : (withDevice s c m).tickRate = s.tickRate := by cases c <;> rfl
@[simp] theorem withDevice_tickEn (c : Chip) (m : Memory) : (withDevice s c m).tickEn = s.tickEn := by cases c <;> rfl
@[simp] theorem withDevice_ovr (c : Chip) (m : Memory) : (withDevice s c m).ovr = s.ovr := by cases c <;> rfl
@[simp] theorem withDevice_tickPend (c : Chip) (m : Memory) : (withDevice s c m).tickPend = s.tickPend := by cases c <;> rfl
@[simp] theorem withDevice_nv (c : Chip) (m : Memory) : (withDevice s c m).nv = s.nv := by cases c <;> rfl
@[simp] theorem withDevice_ain (c : Chip) (m : Memory) : (withDevice s c m).ain = s.ain := by cases c <;> rfl
@[simp] theorem withDevice_freeSpace (c : Chip) (m : Memory) : (withDevice s c m).freeSpace = s.freeSpace := by cases c <;> rfl
@[simp] theorem withDevice_stim (c : Chip) (m : Memory) : (withDevice s c m).stim = s.stim := by cases c <;> rfl
@[simp] theorem withDevice_trace (c : Chip) (m : Memory) : (withDevice s c m).trace = s.trace := by cases c <;> rfl

/-! ### beginTick -/

@[simp] theorem beginTick_mode : (beginTick s).mode = s.mode := rfl
@[simp] theorem beginTick_phase : (beginTick s).phase = s.phase := rfl
@[simp] theorem beginTick_dir : (beginTick s).dir = s.dir := rfl
@[simp] theorem beginTick_slot : (beginTick s).slot = s.slot := rfl
@[simp] theorem beginTick_pcur : (beginTick s).pcur = s.pcur := rfl
@[simp] theorem beginTick_wcur : (beginTick s).wcur = s.wcur := rfl
@[simp] theorem beginTick_gaddr : (beginTick s).gaddr = s.gaddr := rfl
@[simp] theorem beginTick_gcnt : (beginTick s).gcnt = s.gcnt := rfl
@[simp] theorem beginTick_spg : (beginTick s).spg = s.spg := rfl
@[simp] theorem beginTick_grainAct : (beginTick s).grainAct = s.grainAct := rfl
@[simp] theorem beginTick_freezeAct : (beginTick s).freezeAct = s.freezeAct := rfl
@[simp] theorem beginTick_anchor : (beginTick s).anchor = s.anchor := rfl
@[simp] theorem beginTick_endAddr : (beginTick s).endAddr = s.endAddr := rfl
@[simp] theorem beginTick_recorded : (beginTick s).recorded = s.recorded := rfl
@[simp] theorem beginTick_inSample : (beginTick s).inSample = s.inSample := rfl
@[simp] theorem beginTick_rbuf : (beginTick s).rbuf = s.rbuf := rfl
@[simp] theorem beginTick_d0 : (beginTick s).d0 = s.d0 := rfl
@[simp] theorem beginTick_d1 : (beginTick s).d1 = s.d1 := rfl
@[simp] theorem beginTick_mix : (beginTick s).mix = s.mix := rfl
@[simp] theorem beginTick_outSample : (beginTick s).outSample = s.outSample := rfl
@[simp] theorem beginTick_tout : (beginTick s).tout = .continued := rfl
@[simp] theorem beginTick_lpBuf0 : (beginTick s).lpBuf0 = s.lpBuf0 := rfl
@[simp] theorem beginTick_lpBuf1 : (beginTick s).lpBuf1 = s.lpBuf1 := rfl
@[simp] theorem beginTick_hpBuf0 : (beginTick s).hpBuf0 = s.hpBuf0 := rfl
@[simp] theorem beginTick_hpBuf1 : (beginTick s).hpBuf1 = s.hpBuf1 := rfl
@[simp] theorem beginTick_cutLp : (beginTick s).cutLp = s.cutLp := rfl
@[simp] theorem beginTick_fbLp : (beginTick s).fbLp = s.fbLp := rfl
@[simp] theorem beginTick_cutHp : (beginTick s).cutHp = s.cutHp := rfl
@[simp] theorem beginTick_fbHp : (beginTick s).fbHp = s.fbHp := rfl
@[simp] theorem beginTick_rate : (beginTick s).rate = s.rate := rfl
@[simp] theorem beginTick_bitres : (beginTick s).bitres = s.bitres := rfl
@[simp] theorem beginTick_grainSize : (beginTick s).grainSize = s.grainSize := rfl
@[simp] theorem beginTick_stretch : (beginTick s).stretch = s.stretch := rfl
@[simp] theorem beginTick_gest : (beginTick s).gest = s.gest := rfl
@[simp] theorem beginTick_msNow : (beginTick s).msNow = s.msNow := rfl
@[simp] theorem beginTick_tRecStart : (beginTick s).tRecStart = s.tRecStart := rfl
@[simp] theorem beginTick_tRecEnd : (beginTick s).tRecEnd = s.tRecEnd := rfl
@[simp] theorem beginTick_recRate : (beginTick s).recRate = s.recRate := rfl
@[simp] theorem beginTick_tickRate : (beginTick s).tickRate = s.tickRate := rfl
@[simp] theorem beginTick_tickEn : (beginTick s).tickEn = s.tickEn := rfl
@[simp] theorem beginTick_ovr : (beginTick s).ovr = s.ovr := rfl
@[simp] theorem beginTick_tickPend : (beginTick s).tickPend = s.tickPend := rfl
@[simp] theorem beginTick_storeA : (beginTick s).storeA = s.storeA := rfl
@[simp] theorem beginTick_storeB : (beginTick s).storeB = s.storeB := rfl
@[simp] theorem beginTick_nv : (beginTick s).nv = s.nv := rfl
@[simp] theorem beginTick_ain : (beginTick s).ain = s.ain := rfl
@[simp] theorem beginTick_freeSpace : (beginTick s).freeSpace = s.freeSpace := rfl
@[simp] theorem beginTick_stim : (beginTick s).stim = s.stim := rfl
@[simp] theorem beginTick_trace : (beginTick s).trace = s.trace := rfl

/-! ### endTick -/

@[simp] theorem endTick_mode : (endTick s).mode = s.mode := rfl
@[simp] theorem endTick_phase : (endTick s).phase = !s.phase := rfl
@[simp] theorem endTick_dir : (endTick s).dir = s.dir := rfl
@[simp] theorem endTick_slot : (endTick s).slot = s.slot := rfl
@[simp] theorem endTick_pcur : (endTick s).pcur = s.pcur := rfl
@[simp] theorem endTick_wcur : (endTick s).wcur = s.wcur := rfl
@[simp] theorem endTick_gaddr : (endTick s).gaddr = s.gaddr := rfl
@[simp] theorem endTick_gcnt : (endTick s).gcnt = s.gcnt := rfl
@[simp] theorem endTick_spg : (endTick s).spg = s.spg := rfl
@[simp] theorem endTick_grainAct : (endTick s).grainAct = s.grainAct := rfl
@[simp] theorem endTick_freezeAct : (endTick s).freezeAct = s.freezeAct := rfl
@[simp] theorem endTick_anchor : (endTick s).anchor = s.anchor := rfl
@[simp] theorem endTick_endAddr : (endTick s).endAddr = s.endAddr := rfl
@[simp] theorem endTick_recorded : (endTick s).recorded = s.recorded := rfl
@[simp] theorem endTick_inSample : (endTick s).inSample = s.inSample := rfl
@[simp] theorem endTick_rbuf : (endTick s).rbuf = s.rbuf := rfl
@[simp] theorem endTick_d0 : (endTick s).d0 = s.d0 := rfl
@[simp] theorem endTick_d1 : (endTick s).d1 = s.d1 := rfl
@[simp] theorem endTick_mix : (endTick s).mix = s.mix := rfl
@[simp] theorem endTick_outSample : (endTick s).outSample = s.outSample := rfl
@[simp] theorem endTick_tout : (endTick s).tout = s.tout := rfl
@[simp] theorem endTick_lpBuf0 : (endTick s).lpBuf0 = s.lpBuf0 := rfl
@[simp] theorem endTick_lpBuf1 : (endTick s).lpBuf1 = s.lpBuf1 := rfl
@[simp] theorem endTick_hpBuf0 : (endTick s).hpBuf0 = s.hpBuf0 := rfl
@[simp] theorem endTick_hpBuf1 : (endTick s).hpBuf1 = s.hpBuf1 := rfl
@[simp] theorem endTick_cutLp : (endTick s).cutLp = s.cutLp := rfl
@[simp] theorem endTick_fbLp : (endTick s).fbLp = s.fbLp := rfl
@[simp] theorem endTick_cutHp : (endTick s).cutHp = s.cutHp := rfl
@[simp] theorem endTick_fbHp : (endTick s).fbHp = s.fbHp := rfl
@[simp] theorem endTick_rate : (endTick s).rate = s.rate := rfl
@[simp] theorem endTick_bitres : (endTick s).bitres = s.bitres := rfl
@[simp] theorem endTick_grainSize : (endTick s).grainSize = s.grainSize := rfl
@[simp] theorem endTick_stretch : (endTick s).stretch = s.stretch := rfl
@[simp] theorem endTick_gest : (endTick s).gest = s.gest := rfl
@[simp] theorem endTick_msNow : (endTick s).msNow = s.msNow := rfl
@[simp] theorem endTick_tRecStart : (endTick s).tRecStart = s.tRecStart := rfl
@[simp] theorem endTick_tRecEnd : (endTick s).tRecEnd = s.tRecEnd := rfl
@[simp] theorem endTick_recRate : (endTick s).recRate = s.recRate := rfl
@[simp] theorem endTick_tickRate : (endTick s).tickRate = s.tickRate := rfl
@[simp] theorem endTick_tickEn : (endTick s).tickEn = s.tickEn := rfl
@[simp] theorem endTick_ovr : (endTick s).ovr = s.ovr := rfl
@[simp] theorem endTick_tickPend : (endTick s).tickPend = s.tickPend := rfl
@[simp] theorem endTick_storeA : (endTick s).storeA = s.storeA := rfl
@[simp] theorem endTick_storeB : (endTick s).storeB = s.storeB := rfl
@[simp] theorem endTick_nv : (endTick s).nv = s.nv := rfl
@[simp] theorem endTick_ain : (endTick s).ain = s.ain := rfl
@[simp] theorem endTick_freeSpace : (endTick s).freeSpace = s.freeSpace := rfl
@[simp] theorem endTick_stim : (endTick s).stim = s.stim := rfl
@[simp] theorem endTick_trace : (endTick s).trace = s.trace := rfl

/-! ### holdTimerEvent -/

@[simp] theorem holdTimerEvent_mode : (holdTimerEvent s).mode = s.mode := rfl
@[simp] theorem holdTimerEvent_phase : (holdTimerEvent s).phase = s.phase := rfl
@[simp] theorem holdTimerEvent_dir : (holdTimerEvent s).dir = s.dir := rfl
@[simp] theorem holdTimerEvent_slot : (holdTimerEvent s).slot = s.slot := rfl
@[simp] theorem holdTimerEvent_pcur : (holdTimerEvent s).pcur = s.pcur := rfl
@[simp] theorem holdTimerEvent_wcur : (holdTimerEvent s).wcur = s.wcur := rfl
@[simp] theorem holdTimerEvent_gaddr : (holdTimerEvent s).gaddr = s.gaddr := rfl
@[simp] theorem holdTimerEvent_gcnt : (holdTimerEvent s).gcnt = s.gcnt := rfl
@[simp] theorem holdTimerEvent_spg : (holdTimerEvent s).spg = s.spg := rfl
@[simp] theorem holdTimerEvent_grainAct : (holdTimerEvent s).grainAct = s.grainAct := rfl
@[simp] theorem holdTimerEvent_freezeAct : (holdTimerEvent s).freezeAct = s.freezeAct := rfl
@[simp] theorem holdTimerEvent_anchor : (holdTimerEvent s).anchor = s.anchor := rfl
@[simp] theorem holdTimerEvent_endAddr : (holdTimerEvent s).endAddr = s.endAddr := rfl
@[simp] theorem holdTimerEvent_recorded : (holdTimerEvent s).recorded = s.recorded := rfl
@[simp] theorem holdTimerEvent_inSample : (holdTimerEvent s).inSample = s.inSample := rfl
@[simp] theorem holdTimerEvent_rbuf : (holdTimerEvent s).rbuf = s.rbuf := rfl
@[simp] theorem holdTimerEvent_d0 : (holdTimerEvent s).d0 = s.d0 := rfl
@[simp] theorem holdTimerEvent_d1 : (holdTimerEvent s).d1 = s.d1 := rfl
@[simp] theorem holdTimerEvent_mix : (holdTimerEvent s).mix = s.mix := rfl
@[simp] theorem holdTimerEvent_outSample : (holdTimerEvent s).outSample = s.outSample := rfl
@[simp] theorem holdTimerEvent_tout : (holdTimerEvent s).tout = s.tout := rfl
@[simp] theorem holdTimerEvent_lpBuf0 : (holdTimerEvent s).lpBuf0 = s.lpBuf0 := rfl
@[simp] theorem holdTimerEvent_lpBuf1 : (holdTimerEvent s).lpBuf1 = s.lpBuf1 := rfl
@[simp] theorem holdTimerEvent_hpBuf0 : (holdTimerEvent s).hpBuf0 = s.hpBuf0 := rfl
@[simp] theorem holdTimerEvent_hpBuf1 : (holdTimerEvent s).hpBuf1 = s.hpBuf1 := rfl
@[simp] theorem holdTimerEvent_cutLp : (holdTimerEvent s).cutLp = s.cutLp := rfl
@[simp] theorem holdTimerEvent_fbLp : (holdTimerEvent s).fbLp = s.fbLp := rfl
@[simp] theorem holdTimerEvent_cutHp : (holdTimerEvent s).cutHp = s.cutHp := rfl
@[simp] theorem holdTimerEvent_fbHp : (holdTimerEvent s).fbHp = s.fbHp := rfl
@[simp] theorem holdTimerEvent_rate : (holdTimerEvent s).rate = s.rate := rfl
@[simp] theorem holdTimerEvent_bitres : (holdTimerEvent s).bitres = s.bitres := rfl
@[simp] theorem holdTimerEvent_grainSize : (holdTimerEvent s).grainSize = s.grainSize := rfl
@[simp] theorem holdTimerEvent_stretch : (holdTimerEvent s).stretch = s.stretch := rfl
@[simp] theorem holdTimerEvent_gest : (holdTimerEvent s).gest = s.gest := rfl
@[simp] theorem holdTimerEvent_msNow : (holdTimerEvent s).msNow = s.msNow := rfl
@[simp] theorem holdTimerEvent_tRecStart : (holdTimerEvent s).tRecStart = s.tRecStart := rfl
@[simp] theorem holdTimerEvent_tRecEnd : (holdTimerEvent s).tRecEnd = s.tRecEnd := rfl
@[simp] theorem holdTimerEvent_recRate : (holdTimerEvent s).recRate = s.recRate := rfl
@[simp] theorem holdTimerEvent_tickRate : (holdTimerEvent s).tickRate = s.tickRate := rfl
@[simp] theorem holdTimerEvent_tickEn : (holdTimerEvent s).tickEn = s.tickEn := rfl
@[simp] theorem holdTimerEvent_ovr : (holdTimerEvent s).ovr = (s.ovr || s.tickPend) := rfl
@[simp] theorem holdTimerEvent_tickPend : (holdTimerEvent s).tickPend = true := rfl
@[simp] theorem holdTimerEvent_storeA : (holdTimerEvent s).storeA = s.storeA := rfl
@[simp] theorem holdTimerEvent_storeB : (holdTimerEvent s).storeB = s.storeB := rfl
@[simp] theorem holdTimerEvent_nv : (holdTimerEvent s).nv = s.nv := rfl
@[simp] theorem holdTimerEvent_ain : (holdTimerEvent s).ain = s.ain := rfl
@[simp] theorem holdTimerEvent_freeSpace : (holdTimerEvent s).freeSpace = s.freeSpace := rfl
@[simp] theorem holdTimerEvent_stim : (holdTimerEvent s).stim = s.stim := rfl
@[simp] theorem holdTimerEvent_trace : (holdTimerEvent s).trace = s.trace := rfl

/-! ### mixInput -/

@[simp] theorem mixInput_mode : (mixInput s).mode = s.mode := rfl
@[simp] theorem mixInput_phase : (mixInput s).phase = s.phase := rfl
@[simp] theorem mixInput_dir : (mixInput s).dir = s.dir := rfl
@[simp] theorem mixInput_slot : (mixInput s).slot = s.slot := rfl
@[simp] theorem mixInput_pcur : (mixInput s).pcur = s.pcur := rfl
@[simp] theorem mixInput_wcur : (mixInput s).wcur = s.wcur := rfl
@[simp] theorem mixInput_gaddr : (mixInput s).gaddr = s.gaddr := rfl
@[simp] theorem mixInput_gcnt : (mixInput s).gcnt = s.gcnt := rfl
@[simp] theorem mixInput_spg : (mixInput s).spg = s.spg := rfl
@[simp] theorem mixInput_grainAct : (mixInput s).grainAct = s.grainAct := rfl
@[simp] theorem mixInput_freezeAct : (mixInput s).freezeAct = s.freezeAct := rfl
@[simp] theorem mixInput_anchor : (mixInput s).anchor = s.anchor := rfl
@[simp] theorem mixInput_endAddr : (mixInput s).endAddr = s.endAddr := rfl
@[simp] theorem mixInput_recorded : (mixInput s).recorded = s.recorded := rfl
@[simp] theorem mixInput_inSample : (mixInput s).inSample = s.inSample := rfl
@[simp] theorem mixInput_rbuf : (mixInput s).rbuf = s.rbuf := rfl
@[simp] theorem mixInput_d0 : (mixInput s).d0 = s.d0 := rfl
@[simp] theorem mixInput_d1 : (mixInput s).d1 = s.d1 := rfl
@[simp] theorem mixInput_mix : (mixInput s).mix = BitVec.ofInt 12 (signal s.inSample) := rfl
@[simp] theorem mixInput_outSample : (mixInput s).outSample = s.outSample := rfl
@[simp] theorem mixInput_tout : (mixInput s).tout = s.tout := rfl
@[simp] theorem mixInput_lpBuf0 : (mixInput s).lpBuf0 = s.lpBuf0 := rfl
@[simp] theorem mixInput_lpBuf1 : (mixInput s).lpBuf1 = s.lpBuf1 := rfl
@[simp] theorem mixInput_hpBuf0 : (mixInput s).hpBuf0 = s.hpBuf0 := rfl
@[simp] theorem mixInput_hpBuf1 : (mixInput s).hpBuf1 = s.hpBuf1 := rfl
@[simp] theorem mixInput_cutLp : (mixInput s).cutLp = s.cutLp := rfl
@[simp] theorem mixInput_fbLp : (mixInput s).fbLp = s.fbLp := rfl
@[simp] theorem mixInput_cutHp : (mixInput s).cutHp = s.cutHp := rfl
@[simp] theorem mixInput_fbHp : (mixInput s).fbHp = s.fbHp := rfl
@[simp] theorem mixInput_rate : (mixInput s).rate = s.rate := rfl
@[simp] theorem mixInput_bitres : (mixInput s).bitres = s.bitres := rfl
@[simp] theorem mixInput_grainSize : (mixInput s).grainSize = s.grainSize := rfl
@[simp] theorem mixInput_stretch : (mixInput s).stretch = s.stretch := rfl
@[simp] theorem mixInput_gest : (mixInput s).gest = s.gest := rfl
@[simp] theorem mixInput_msNow : (mixInput s).msNow = s.msNow := rfl
@[simp] theorem mixInput_tRecStart : (mixInput s).tRecStart = s.tRecStart := rfl
@[simp] theorem mixInput_tRecEnd : (mixInput s).tRecEnd = s.tRecEnd := rfl
@[simp] theorem mixInput_recRate : (mixInput s).recRate = s.recRate := rfl
@[simp] theorem mixInput_tickRate : (mixInput s).tickRate = s.tickRate := rfl
@[simp] theorem mixInput_tickEn : (mixInput s).tickEn = s.tickEn := rfl
@[simp] theorem mixInput_ovr : (mixInput s).ovr = s.ovr := rfl
@[simp] theorem mixInput_tickPend : (mixInput s).tickPend = s.tickPend := rfl
@[simp] theorem mixInput_storeA : (mixInput s).storeA = s.storeA := rfl
@[simp] theorem mixInput_storeB : (mixInput s).storeB = s.storeB := rfl
@[simp] theorem mixInput_nv : (mixInput s).nv = s.nv := rfl
@[simp] theorem mixInput_ain : (mixInput s).ain = s.ain := rfl
@[simp] theorem mixInput_freeSpace : (mixInput s).freeSpace = s.freeSpace := rfl
@[simp] theorem mixInput_stim : (mixInput s).stim = s.stim := rfl
@[simp] theorem mixInput_trace : (mixInput s).trace = s.trace := rfl

/-! ### mixStored -/

@[simp] theorem mixStored_mode (d : Sample) : (mixStored d s).mode = s.mode := rfl
@[simp] theorem mixStored_phase (d : Sample) : (mixStored d s).phase = s.phase := rfl
@[simp] theorem mixStored_dir (d : Sample) : (mixStored d s).dir = s.dir := rfl
@[simp] theorem mixStored_slot (d : Sample) : (mixStored d s).slot = s.slot := rfl
@[simp] theorem mixStored_pcur (d : Sample) : (mixStored d s).pcur = s.pcur := rfl
@[simp] theorem mixStored_wcur (d : Sample) : (mixStored d s).wcur = s.wcur := rfl
@[simp] theorem mixStored_gaddr (d : Sample) : (mixStored d s).gaddr = s.gaddr := rfl
@[simp] theorem mixStored_gcnt (d : Sample) : (mixStored d s).gcnt = s.gcnt := rfl
@[simp] theorem mixStored_spg (d : Sample) : (mixStored d s).spg = s.spg := rfl
@[simp] theorem mixStored_grainAct (d : Sample) : (mixStored d s).grainAct = s.grainAct := rfl
@[simp] theorem mixStored_freezeAct (d : Sample) : (mixStored d s).freezeAct = s.freezeAct := rfl
@[simp] theorem mixStored_anchor (d : Sample) : (mixStored d s).anchor = s.anchor := rfl
@[simp] theorem mixStored_endAddr (d : Sample) : (mixStored d s).endAddr = s.endAddr := rfl
@[simp] theorem mixStored_recorded (d : Sample) : (mixStored d s).recorded = s.recorded := rfl
@[simp] theorem mixStored_inSample (d : Sample) : (mixStored d s).inSample = s.inSample := rfl
@[simp] theorem mixStored_rbuf (d : Sample) : (mixStored d s).rbuf = s.rbuf := rfl
@[simp] theorem mixStored_d0 (d : Sample) : (mixStored d s).d0 = s.d0 := rfl
@[simp] theorem mixStored_d1 (d : Sample) : (mixStored d s).d1 = s.d1 := rfl
@[simp] theorem mixStored_mix (d : Sample) : (mixStored d s).mix = BitVec.ofInt 12 (clamp12 (signal d + signal s.inSample)) := rfl
@[simp] theorem mixStored_outSample (d : Sample) : (mixStored d s).outSample = s.outSample := rfl
@[simp] theorem mixStored_tout (d : Sample) : (mixStored d s).tout = s.tout := rfl
@[simp] theorem mixStored_lpBuf0 (d : Sample) : (mixStored d s).lpBuf0 = s.lpBuf0 := rfl
@[simp] theorem mixStored_lpBuf1 (d : Sample) : (mixStored d s).lpBuf1 = s.lpBuf1 := rfl
@[simp] theorem mixStored_hpBuf0 (d : Sample) : (mixStored d s).hpBuf0 = s.hpBuf0 := rfl
@[simp] theorem mixStored_hpBuf1 (d : Sample) : (mixStored d s).hpBuf1 = s.hpBuf1 := rfl
@[simp] theorem mixStored_cutLp (d : Sample) : (mixStored d s).cutLp = s.cutLp := rfl
@[simp] theorem mixStored_fbLp (d : Sample) : (mixStored d s).fbLp = s.fbLp := rfl
@[simp] theorem mixStored_cutHp (d : Sample) : (mixStored d s).cutHp = s.cutHp := rfl
@[simp] theorem mixStored_fbHp (d : Sample) : (mixStored d s).fbHp = s.fbHp := rfl
@[simp] theorem mixStored_rate (d : Sample) : (mixStored d s).rate = s.rate := rfl
@[simp] theorem mixStored_bitres (d : Sample) : (mixStored d s).bitres = s.bitres := rfl
@[simp] theorem mixStored_grainSize (d : Sample) : (mixStored d s).grainSize = s.grainSize := rfl
@[simp] theorem mixStored_stretch (d : Sample) : (mixStored d s).stretch = s.stretch := rfl
@[simp] theorem mixStored_gest (d : Sample) : (mixStored d s).gest = s.gest := rfl
@[simp] theorem mixStored_msNow (d : Sample) : (mixStored d s).msNow = s.msNow := rfl
@[simp] theorem mixStored_tRecStart (d : Sample) : (mixStored d s).tRecStart = s.tRecStart := rfl
@[simp] theorem mixStored_tRecEnd (d : Sample) : (mixStored d s).tRecEnd = s.tRecEnd := rfl
@[simp] theorem mixStored_recRate (d : Sample) : (mixStored d s).recRate = s.recRate := rfl
@[simp] theorem mixStored_tickRate (d : Sample) : (mixStored d s).tickRate = s.tickRate := rfl
@[simp] theorem mixStored_tickEn (d : Sample) : (mixStored d s).tickEn = s.tickEn := rfl
@[simp] theorem mixStored_ovr (d : Sample) : (mixStored d s).ovr = s.ovr := rfl
@[simp] theorem mixStored_tickPend (d : Sample) : (mixStored d s).tickPend = s.tickPend := rfl
@[simp] theorem mixStored_storeA (d : Sample) : (mixStored d s).storeA = s.storeA := rfl
@[simp] theorem mixStored_storeB (d : Sample) : (mixStored d s).storeB = s.storeB := rfl
@[simp] theorem mixStored_nv (d : Sample) : (mixStored d s).nv = s.nv := rfl
@[simp] theorem mixStored_ain (d : Sample) : (mixStored d s).ain = s.ain := rfl
@[simp] theorem mixStored_freeSpace (d : Sample) : (mixStored d s).freeSpace = s.freeSpace := rfl
@[simp] theorem mixStored_stim (d : Sample) : (mixStored d s).stim = s.stim := rfl
@[simp] theorem mixStored_trace (d : Sample) : (mixStored d s).trace = s.trace := rfl

/-! ### advancePlay -/

@[simp] theorem advancePlay_mode : (advancePlay s).mode = s.mode := rfl
@[simp] theorem advancePlay_phase : (advancePlay s).phase = s.phase := rfl
@[simp] theorem advancePlay_dir : (advancePlay s).dir = s.dir := rfl
@[simp] theorem advancePlay_slot : (advancePlay s).slot = s.slot := rfl
@[simp] theorem advancePlay_pcur : (advancePlay s).pcur = toCursor (wrapOf s s.slot (s.pcur.toInt + effStep s.slot s.dir)) := rfl
@[simp] theorem advancePlay_wcur : (advancePlay s).wcur = s.wcur := rfl
@[simp] theorem advancePlay_gaddr : (advancePlay s).gaddr = s.gaddr := rfl
@[simp] theorem advancePlay_gcnt : (advancePlay s).gcnt = s.gcnt := rfl
@[simp] theorem advancePlay_spg : (advancePlay s).spg = s.spg := rfl
@[simp] theorem advancePlay_grainAct : (advancePlay s).grainAct = s.grainAct := rfl
@[simp] theorem advancePlay_freezeAct : (advancePlay s).freezeAct = s.freezeAct := rfl
@[simp] theorem advancePlay_anchor : (advancePlay s).anchor = s.anchor := rfl
@[simp] theorem advancePlay_endAddr : (advancePlay s).endAddr = s.endAddr := rfl
@[simp] theorem advancePlay_recorded : (advancePlay s).recorded = s.recorded := rfl
@[simp] theorem advancePlay_inSample : (advancePlay s).inSample = s.inSample := rfl
@[simp] theorem advancePlay_rbuf : (advancePlay s).rbuf = s.rbuf := rfl
@[simp] theorem advancePlay_d0 : (advancePlay s).d0 = s.d0 := rfl
@[simp] theorem advancePlay_d1 : (advancePlay s).d1 = s.d1 := rfl
@[simp] theorem advancePlay_mix : (advancePlay s).mix = s.mix := rfl
@[simp] theorem advancePlay_outSample : (advancePlay s).outSample = s.outSample := rfl
@[simp] theorem advancePlay_tout : (advancePlay s).tout = s.tout := rfl
@[simp] theorem advancePlay_lpBuf0 : (advancePlay s).lpBuf0 = s.lpBuf0 := rfl
@[simp] theorem advancePlay_lpBuf1 : (advancePlay s).lpBuf1 = s.lpBuf1 := rfl
@[simp] theorem advancePlay_hpBuf0 : (advancePlay s).hpBuf0 = s.hpBuf0 := rfl
@[simp] theorem advancePlay_hpBuf1 : (advancePlay s).hpBuf1 = s.hpBuf1 := rfl
@[simp] theorem advancePlay_cutLp : (advancePlay s).cutLp = s.cutLp := rfl
@[simp] theorem advancePlay_fbLp : (advancePlay s).fbLp = s.fbLp := rfl
@[simp] theorem advancePlay_cutHp : (advancePlay s).cutHp = s.cutHp := rfl
@[simp] theorem advancePlay_fbHp : (advancePlay s).fbHp = s.fbHp := rfl
@[simp] theorem advancePlay_rate : (advancePlay s).rate = s.rate := rfl
@[simp] theorem advancePlay_bitres : (advancePlay s).bitres = s.bitres := rfl
@[simp] theorem advancePlay_grainSize : (advancePlay s).grainSize = s.grainSize := rfl
@[simp] theorem advancePlay_stretch : (advancePlay s).stretch = s.stretch := rfl
@[simp] theorem advancePlay_gest : (advancePlay s).gest = s.gest := rfl
@[simp] theorem advancePlay_msNow : (advancePlay s).msNow = s.msNow := rfl
@[simp] theorem advancePlay_tRecStart : (advancePlay s).tRecStart = s.tRecStart := rfl
@[simp] theorem advancePlay_tRecEnd : (advancePlay s).tRecEnd = s.tRecEnd := rfl
@[simp] theorem advancePlay_recRate : (advancePlay s).recRate = s.recRate := rfl
@[simp] theorem advancePlay_tickRate : (advancePlay s).tickRate = s.tickRate := rfl
@[simp] theorem advancePlay_tickEn : (advancePlay s).tickEn = s.tickEn := rfl
@[simp] theorem advancePlay_ovr : (advancePlay s).ovr = s.ovr := rfl
@[simp] theorem advancePlay_tickPend : (advancePlay s).tickPend = s.tickPend := rfl
@[simp] theorem advancePlay_storeA : (advancePlay s).storeA = s.storeA := rfl
@[simp] theorem advancePlay_storeB : (advancePlay s).storeB = s.storeB := rfl
@[simp] theorem advancePlay_nv : (advancePlay s).nv = s.nv := rfl
@[simp] theorem advancePlay_ain : (advancePlay s).ain = s.ain := rfl
@[simp] theorem advancePlay_freeSpace : (advancePlay s).freeSpace = s.freeSpace := rfl
@[simp] theorem advancePlay_stim : (advancePlay s).stim = s.stim := rfl
@[simp] theorem advancePlay_trace : (advancePlay s).trace = s.trace := rfl

/-! ### advanceWrite -/

@[simp] theorem advanceWrite_mode : (advanceWrite s).mode = s.mode := rfl
@[simp] theorem advanceWrite_phase : (advanceWrite s).phase = s.phase := rfl
@[simp] theorem advanceWrite_dir : (advanceWrite s).dir = s.dir := rfl
@[simp] theorem advanceWrite_slot : (advanceWrite s).slot = s.slot := rfl
@[simp] theorem advanceWrite_pcur : (advanceWrite s).pcur = s.pcur := rfl
@[simp] theorem advanceWrite_wcur : (advanceWrite s).wcur = toCursor (s.wcur.toInt + sigma s.slot * Config.stride) := rfl
@[simp] theorem advanceWrite_gaddr : (advanceWrite s).gaddr = s.gaddr := rfl
@[simp] theorem advanceWrite_gcnt : (advanceWrite s).gcnt = s.gcnt := rfl
@[simp] theorem advanceWrite_spg : (advanceWrite s).spg = s.spg := rfl
@[simp] theorem advanceWrite_grainAct : (advanceWrite s).grainAct = s.grainAct := rfl
@[simp] theorem advanceWrite_freezeAct : (advanceWrite s).freezeAct = s.freezeAct := rfl
@[simp] theorem advanceWrite_anchor : (advanceWrite s).anchor = s.anchor := rfl
@[simp] theorem advanceWrite_endAddr : (advanceWrite s).endAddr = s.endAddr := rfl
@[simp] theorem advanceWrite_recorded : (advanceWrite s).recorded = s.recorded := rfl
@[simp] theorem advanceWrite_inSample : (advanceWrite s).inSample = s.inSample := rfl
@[simp] theorem advanceWrite_rbuf : (advanceWrite s).rbuf = s.rbuf := rfl
@[simp] theorem advanceWrite_d0 : (advanceWrite s).d0 = s.d0 := rfl
@[simp] theorem advanceWrite_d1 : (advanceWrite s).d1 = s.d1 := rfl
@[simp] theorem advanceWrite_mix : (advanceWrite s).mix = s.mix := rfl
@[simp] theorem advanceWrite_outSample : (advanceWrite s).outSample = s.outSample := rfl
@[simp] theorem advanceWrite_tout : (advanceWrite s).tout = s.tout := rfl
@[simp] theorem advanceWrite_lpBuf0 : (advanceWrite s).lpBuf0 = s.lpBuf0 := rfl
@[simp] theorem advanceWrite_lpBuf1 : (advanceWrite s).lpBuf1 = s.lpBuf1 := rfl
@[simp] theorem advanceWrite_hpBuf0 : (advanceWrite s).hpBuf0 = s.hpBuf0 := rfl
@[simp] theorem advanceWrite_hpBuf1 : (advanceWrite s).hpBuf1 = s.hpBuf1 := rfl
@[simp] theorem advanceWrite_cutLp : (advanceWrite s).cutLp = s.cutLp := rfl
@[simp] theorem advanceWrite_fbLp : (advanceWrite s).fbLp = s.fbLp := rfl
@[simp] theorem advanceWrite_cutHp : (advanceWrite s).cutHp = s.cutHp := rfl
@[simp] theorem advanceWrite_fbHp : (advanceWrite s).fbHp = s.fbHp := rfl
@[simp] theorem advanceWrite_rate : (advanceWrite s).rate = s.rate := rfl
@[simp] theorem advanceWrite_bitres : (advanceWrite s).bitres = s.bitres := rfl
@[simp] theorem advanceWrite_grainSize : (advanceWrite s).grainSize = s.grainSize := rfl
@[simp] theorem advanceWrite_stretch : (advanceWrite s).stretch = s.stretch := rfl
@[simp] theorem advanceWrite_gest : (advanceWrite s).gest = s.gest := rfl
@[simp] theorem advanceWrite_msNow : (advanceWrite s).msNow = s.msNow := rfl
@[simp] theorem advanceWrite_tRecStart : (advanceWrite s).tRecStart = s.tRecStart := rfl
@[simp] theorem advanceWrite_tRecEnd : (advanceWrite s).tRecEnd = s.tRecEnd := rfl
@[simp] theorem advanceWrite_recRate : (advanceWrite s).recRate = s.recRate := rfl
@[simp] theorem advanceWrite_tickRate : (advanceWrite s).tickRate = s.tickRate := rfl
@[simp] theorem advanceWrite_tickEn : (advanceWrite s).tickEn = s.tickEn := rfl
@[simp] theorem advanceWrite_ovr : (advanceWrite s).ovr = s.ovr := rfl
@[simp] theorem advanceWrite_tickPend : (advanceWrite s).tickPend = s.tickPend := rfl
@[simp] theorem advanceWrite_storeA : (advanceWrite s).storeA = s.storeA := rfl
@[simp] theorem advanceWrite_storeB : (advanceWrite s).storeB = s.storeB := rfl
@[simp] theorem advanceWrite_nv : (advanceWrite s).nv = s.nv := rfl
@[simp] theorem advanceWrite_ain : (advanceWrite s).ain = s.ain := rfl
@[simp] theorem advanceWrite_freeSpace : (advanceWrite s).freeSpace = s.freeSpace := rfl
@[simp] theorem advanceWrite_stim : (advanceWrite s).stim = s.stim := rfl
@[simp] theorem advanceWrite_trace : (advanceWrite s).trace = s.trace := rfl

/-! ### checkOverflow -/

@[simp] theorem checkOverflow_phase : (checkOverflow s).phase = s.phase := by unfold checkOverflow; split <;> rfl
@[simp] theorem checkOverflow_dir : (checkOverflow s).dir = s.dir := by unfold checkOverflow; split <;> rfl
@[simp] theorem checkOverflow_slot : (checkOverflow s).slot = s.slot := by unfold checkOverflow; split <;> rfl
@[simp] theorem checkOverflow_pcur : (checkOverflow s).pcur = s.pcur := by unfold checkOverflow; split <;> rfl
@[simp] theorem checkOverflow_wcur : (checkOverflow s).wcur = s.wcur := by unfold checkOverflow; split <;> rfl
@[simp] theorem checkOverflow_gaddr : (checkOverflow s).gaddr = s.gaddr := by unfold checkOverflow; split <;> rfl
@[simp] theorem checkOverflow_gcnt : (checkOverflow s).gcnt = s.gcnt := by unfold checkOverflow; split <;> rfl
@[simp] theorem checkOverflow_spg : (checkOverflow s).spg = s.spg := by unfold checkOverflow; split <;> rfl
@[simp] theorem checkOverflow_grainAct : (checkOverflow s).grainAct = s.grainAct := by unfold checkOverflow; split <;> rfl
@[simp] theorem checkOverflow_freezeAct : (checkOverflow s).freezeAct = s.freezeAct := by unfold checkOverflow; split <;> rfl
@[simp] theorem checkOverflow_anchor : (checkOverflow s).anchor = s.anchor := by unfold checkOverflow; split <;> rfl
@[simp] theorem checkOverflow_endAddr : (checkOverflow s).endAddr = s.endAddr := by unfold checkOverflow; split <;> rfl
@[simp] theorem checkOverflow_recorded : (checkOverflow s).recorded = s.recorded := by unfold checkOverflow; split <;> rfl
@[simp] theorem checkOverflow_inSample : (checkOverflow s).inSample = s.inSample := by unfold checkOverflow; split <;> rfl
@[simp] theorem checkOverflow_rbuf : (checkOverflow s).rbuf = s.rbuf := by unfold checkOverflow; split <;> rfl
@[simp] theorem checkOverflow_d0 : (checkOverflow s).d0 = s.d0 := by unfold checkOverflow; split <;> rfl
@[simp] theorem checkOverflow_d1 : (checkOverflow s).d1 = s.d1 := by unfold checkOverflow; split <;> rfl
@[simp] theorem checkOverflow_mix : (checkOverflow s).mix = s.mix := by unfold checkOverflow; split <;> rfl
@[simp] theorem checkOverflow_outSample : (checkOverflow s).outSample = s.outSample := by unfold checkOverflow; split <;> rfl
@[simp] theorem checkOverflow_lpBuf0 : (checkOverflow s).lpBuf0 = s.lpBuf0 := by unfold checkOverflow; split <;> rfl
@[simp] theorem checkOverflow_lpBuf1 : (checkOverflow s).lpBuf1 = s.lpBuf1 := by unfold checkOverflow; split <;> rfl
@[simp] theorem checkOverflow_hpBuf0 : (checkOverflow s).hpBuf0 = s.hpBuf0 := by unfold checkOverflow; split <;> rfl
@[simp] theorem checkOverflow_hpBuf1 : (checkOverflow s).hpBuf1 = s.hpBuf1 := by unfold checkOverflow; split <;> rfl
@[simp] theorem checkOverflow_cutLp : (checkOverflow s).cutLp = s.cutLp := by unfold checkOverflow; split <;> rfl
@[simp] theorem checkOverflow_fbLp : (checkOverflow s).fbLp = s.fbLp := by unfold checkOverflow; split <;> rfl
@[simp] theorem checkOverflow_cutHp : (checkOverflow s).cutHp = s.cutHp := by unfold checkOverflow; split <;> rfl
@[simp] theorem checkOverflow_fbHp : (checkOverflow s).fbHp = s.fbHp := by unfold checkOverflow; split <;> rfl
@[simp] theorem checkOverflow_rate : (checkOverflow s).rate = s.rate := by unfold checkOverflow; split <;> rfl
@[simp] theorem checkOverflow_bitres : (checkOverflow s).bitres = s.bitres := by unfold checkOverflow; split <;> rfl
@[simp] theorem checkOverflow_grainSize : (checkOverflow s).grainSize = s.grainSize := by unfold checkOverflow; split <;> rfl
@[simp] theorem checkOverflow_stretch : (checkOverflow s).stretch = s.stretch := by unfold checkOverflow; split <;> rfl
@[simp] theorem checkOverflow_gest : (checkOverflow s).gest = s.gest := by unfold checkOverflow; split <;> rfl
@[simp] theorem checkOverflow_msNow : (checkOverflow s).msNow = s.msNow := by unfold checkOverflow; split <;> rfl
@[simp] theorem checkOverflow_tRecStart : (checkOverflow s).tRecStart = s.tRecStart := by unfold checkOverflow; split <;> rfl
@[simp] theorem checkOverflow_tRecEnd : (checkOverflow s).tRecEnd = s.tRecEnd := by unfold checkOverflow; split <;> rfl
@[simp] theorem checkOverflow_recRate : (checkOverflow s).recRate = s.recRate := by unfold checkOverflow; split <;> rfl
@[simp] theorem checkOverflow_tickRate : (checkOverflow s).tickRate = s.tickRate := by unfold checkOverflow; split <;> rfl
@[simp] theorem checkOverflow_tickEn : (checkOverflow s).tickEn = s.tickEn := by unfold checkOverflow; split <;> rfl
@[simp] theorem checkOverflow_ovr : (checkOverflow s).ovr = s.ovr := by unfold checkOverflow; split <;> rfl
@[simp] theorem checkOverflow_tickPend : (checkOverflow s).tickPend = s.tickPend := by unfold checkOverflow; split <;> rfl
@[simp] theorem checkOverflow_storeA : (checkOverflow s).storeA = s.storeA := by unfold checkOverflow; split <;> rfl
@[simp] theorem checkOverflow_storeB : (checkOverflow s).storeB = s.storeB := by unfold checkOverflow; split <;> rfl
@[simp] theorem checkOverflow_nv : (checkOverflow s).nv = s.nv := by unfold checkOverflow; split <;> rfl
@[simp] theorem checkOverflow_ain : (checkOverflow s).ain = s.ain := by unfold checkOverflow; split <;> rfl
@[simp] theorem checkOverflow_freeSpace : (checkOverflow s).freeSpace = s.freeSpace := by unfold checkOverflow; split <;> rfl
@[simp] theorem checkOverflow_stim : (checkOverflow s).stim = s.stim := by unfold checkOverflow; split <;> rfl
@[simp] theorem checkOverflow_trace : (checkOverflow s).trace = s.trace := by unfold checkOverflow; split <;> rfl

/-! ### countGrain -/

@[simp] theorem countGrain_mode (k : SlotId) : (countGrain s k).mode = s.mode := by simp only [countGrain]; split <;> rfl
@[simp] theorem countGrain_phase (k : SlotId) : (countGrain s k).phase = s.phase := by simp only [countGrain]; split <;> rfl
@[simp] theorem countGrain_dir (k : SlotId) : (countGrain s k).dir = s.dir := by simp only [countGrain]; split <;> rfl
@[simp] theorem countGrain_slot (k : SlotId) : (countGrain s k).slot = s.slot := by simp only [countGrain]; split <;> rfl
@[simp] theorem countGrain_pcur (k : SlotId) : (countGrain s k).pcur = s.pcur := by simp only [countGrain]; split <;> rfl
@[simp] theorem countGrain_wcur (k : SlotId) : (countGrain s k).wcur = s.wcur := by simp only [countGrain]; split <;> rfl
@[simp] theorem countGrain_spg (k : SlotId) : (countGrain s k).spg = s.spg := by simp only [countGrain]; split <;> rfl
@[simp] theorem countGrain_grainAct (k : SlotId) : (countGrain s k).grainAct = s.grainAct := by simp only [countGrain]; split <;> rfl
@[simp] theorem countGrain_freezeAct (k : SlotId) : (countGrain s k).freezeAct = s.freezeAct := by simp only [countGrain]; split <;> rfl
@[simp] theorem countGrain_anchor (k : SlotId) : (countGrain s k).anchor = s.anchor := by simp only [countGrain]; split <;> rfl
@[simp] theorem countGrain_endAddr (k : SlotId) : (countGrain s k).endAddr = s.endAddr := by simp only [countGrain]; split <;> rfl
@[simp] theorem countGrain_recorded (k : SlotId) : (countGrain s k).recorded = s.recorded := by simp only [countGrain]; split <;> rfl
@[simp] theorem countGrain_inSample (k : SlotId) : (countGrain s k).inSample = s.inSample := by simp only [countGrain]; split <;> rfl
@[simp] theorem countGrain_rbuf (k : SlotId) : (countGrain s k).rbuf = s.rbuf := by simp only [countGrain]; split <;> rfl
@[simp] theorem countGrain_d0 (k : SlotId) : (countGrain s k).d0 = s.d0 := by simp only [countGrain]; split <;> rfl
@[simp] theorem countGrain_d1 (k : SlotId) : (countGrain s k).d1 = s.d1 := by simp only [countGrain]; split <;> rfl
@[simp] theorem countGrain_mix (k : SlotId) : (countGrain s k).mix = s.mix := by simp only [countGrain]; split <;> rfl
@[simp] theorem countGrain_outSample (k : SlotId) : (countGrain s k).outSample = s.outSample := by simp only [countGrain]; split <;> rfl
@[simp] theorem countGrain_tout (k : SlotId) : (countGrain s k).tout = s.tout := by simp only [countGrain]; split <;> rfl
@[simp] theorem countGrain_lpBuf0 (k : SlotId) : (countGrain s k).lpBuf0 = s.lpBuf0 := by simp only [countGrain]; split <;> rfl
@[simp] theorem countGrain_lpBuf1 (k : SlotId) : (countGrain s k).lpBuf1 = s.lpBuf1 := by simp only [countGrain]; split <;> rfl
@[simp] theorem countGrain_hpBuf0 (k : SlotId) : (countGrain s k).hpBuf0 = s.hpBuf0 := by simp only [countGrain]; split <;> rfl
@[simp] theorem countGrain_hpBuf1 (k : SlotId) : (countGrain s k).hpBuf1 = s.hpBuf1 := by simp only [countGrain]; split <;> rfl
@[simp] theorem countGrain_cutLp (k : SlotId) : (countGrain s k).cutLp = s.cutLp := by simp only [countGrain]; split <;> rfl
@[simp] theorem countGrain_fbLp (k : SlotId) : (countGrain s k).fbLp = s.fbLp := by simp only [countGrain]; split <;> rfl
@[simp] theorem countGrain_cutHp (k : SlotId) : (countGrain s k).cutHp = s.cutHp := by simp only [countGrain]; split <;> rfl
@[simp] theorem countGrain_fbHp (k : SlotId) : (countGrain s k).fbHp = s.fbHp := by simp only [countGrain]; split <;> rfl
@[simp] theorem countGrain_rate (k : SlotId) : (countGrain s k).rate = s.rate := by simp only [countGrain]; split <;> rfl
@[simp] theorem countGrain_bitres (k : SlotId) : (countGrain s k).bitres = s.bitres := by simp only [countGrain]; split <;> rfl
@[simp] theorem countGrain_grainSize (k : SlotId) : (countGrain s k).grainSize = s.grainSize := by simp only [countGrain]; split <;> rfl
@[simp] theorem countGrain_stretch (k : SlotId) : (countGrain s k).stretch = s.stretch := by simp only [countGrain]; split <;> rfl
@[simp] theorem countGrain_gest (k : SlotId) : (countGrain s k).gest = s.gest := by simp only [countGrain]; split <;> rfl
@[simp] theorem countGrain_msNow (k : SlotId) : (countGrain s k).msNow = s.msNow := by simp only [countGrain]; split <;> rfl
@[simp] theorem countGrain_tRecStart (k : SlotId) : (countGrain s k).tRecStart = s.tRecStart := by simp only [countGrain]; split <;> rfl
@[simp] theorem countGrain_tRecEnd (k : SlotId) : (countGrain s k).tRecEnd = s.tRecEnd := by simp only [countGrain]; split <;> rfl
@[simp] theorem countGrain_recRate (k : SlotId) : (countGrain s k).recRate = s.recRate := by simp only [countGrain]; split <;> rfl
@[simp] theorem countGrain_tickRate (k : SlotId) : (countGrain s k).tickRate = s.tickRate := by simp only [countGrain]; split <;> rfl
@[simp] theorem countGrain_tickEn (k : SlotId) : (countGrain s k).tickEn = s.tickEn := by simp only [countGrain]; split <;> rfl
@[simp] theorem countGrain_ovr (k : SlotId) : (countGrain s k).ovr = s.ovr := by simp only [countGrain]; split <;> rfl
@[simp] theorem countGrain_tickPend (k : SlotId) : (countGrain s k).tickPend = s.tickPend := by simp only [countGrain]; split <;> rfl
@[simp] theorem countGrain_storeA (k : SlotId) : (countGrain s k).storeA = s.storeA := by simp only [countGrain]; split <;> rfl
@[simp] theorem countGrain_storeB (k : SlotId) : (countGrain s k).storeB = s.storeB := by simp only [countGrain]; split <;> rfl
@[simp] theorem countGrain_nv (k : SlotId) : (countGrain s k).nv = s.nv := by simp only [countGrain]; split <;> rfl
@[simp] theorem countGrain_ain (k : SlotId) : (countGrain s k).ain = s.ain := by simp only [countGrain]; split <;> rfl
@[simp] theorem countGrain_freeSpace (k : SlotId) : (countGrain s k).freeSpace = s.freeSpace := by simp only [countGrain]; split <;> rfl
@[simp] theorem countGrain_stim (k : SlotId) : (countGrain s k).stim = s.stim := by simp only [countGrain]; split <;> rfl
@[simp] theorem countGrain_trace (k : SlotId) : (countGrain s k).trace = s.trace := by simp only [countGrain]; split <;> rfl

/-! ### filterBypass -/

@[simp] theorem filterBypass_mode : (filterBypass s).mode = s.mode := rfl
@[simp] theorem filterBypass_phase : (filterBypass s).phase = s.phase := rfl
@[simp] theorem filterBypass_dir : (filterBypass s).dir = s.dir := rfl
@[simp] theorem filterBypass_slot : (filterBypass s).slot = s.slot := rfl
@[simp] theorem filterBypass_pcur : (filterBypass s).pcur = s.pcur := rfl
@[simp] theorem filterBypass_wcur : (filterBypass s).wcur = s.wcur := rfl
@[simp] theorem filterBypass_gaddr : (filterBypass s).gaddr = s.gaddr := rfl
@[simp] theorem filterBypass_gcnt : (filterBypass s).gcnt = s.gcnt := rfl
@[simp] theorem filterBypass_spg : (filterBypass s).spg = s.spg := rfl
@[simp] theorem filterBypass_grainAct : (filterBypass s).grainAct = s.grainAct := rfl
@[simp] theorem filterBypass_freezeAct : (filterBypass s).freezeAct = s.freezeAct := rfl
@[simp] theorem filterBypass_anchor : (filterBypass s).anchor = s.anchor := rfl
@[simp] theorem filterBypass_endAddr : (filterBypass s).endAddr = s.endAddr := rfl
@[simp] theorem filterBypass_recorded : (filterBypass s).recorded = s.recorded := rfl
@[simp] theorem filterBypass_inSample : (filterBypass s).inSample = s.inSample := rfl
@[simp] theorem filterBypass_rbuf : (filterBypass s).rbuf = s.rbuf := rfl
@[simp] theorem filterBypass_d0 : (filterBypass s).d0 = s.d0 := rfl
@[simp] theorem filterBypass_d1 : (filterBypass s).d1 = s.d1 := rfl
@[simp] theorem filterBypass_mix : (filterBypass s).mix = s.mix := rfl
@[simp] theorem filterBypass_outSample : (filterBypass s).outSample = BitVec.ofInt 12 (s.mix.toInt + Config.dcOffset) := rfl
@[simp] theorem filterBypass_tout : (filterBypass s).tout = s.tout := rfl
@[simp] theorem filterBypass_lpBuf0 : (filterBypass s).lpBuf0 = s.lpBuf0 := rfl
@[simp] theorem filterBypass_lpBuf1 : (filterBypass s).lpBuf1 = s.lpBuf1 := rfl
@[simp] theorem filterBypass_hpBuf0 : (filterBypass s).hpBuf0 = s.hpBuf0 := rfl
@[simp] theorem filterBypass_hpBuf1 : (filterBypass s).hpBuf1 = s.hpBuf1 := rfl
@[simp] theorem filterBypass_cutLp : (filterBypass s).cutLp = s.cutLp := rfl
@[simp] theorem filterBypass_fbLp : (filterBypass s).fbLp = s.fbLp := rfl
@[simp] theorem filterBypass_cutHp : (filterBypass s).cutHp = s.cutHp := rfl
@[simp] theorem filterBypass_fbHp : (filterBypass s).fbHp = s.fbHp := rfl
@[simp] theorem filterBypass_rate : (filterBypass s).rate = s.rate := rfl
@[simp] theorem filterBypass_bitres : (filterBypass s).bitres = s.bitres := rfl
@[simp] theorem filterBypass_grainSize : (filterBypass s).grainSize = s.grainSize := rfl
@[simp] theorem filterBypass_stretch : (filterBypass s).stretch = s.stretch := rfl
@[simp] theorem filterBypass_gest : (filterBypass s).gest = s.gest := rfl
@[simp] theorem filterBypass_msNow : (filterBypass s).msNow = s.msNow := rfl
@[simp] theorem filterBypass_tRecStart : (filterBypass s).tRecStart = s.tRecStart := rfl
@[simp] theorem filterBypass_tRecEnd : (filterBypass s).tRecEnd = s.tRecEnd := rfl
@[simp] theorem filterBypass_recRate : (filterBypass s).recRate = s.recRate := rfl
@[simp] theorem filterBypass_tickRate : (filterBypass s).tickRate = s.tickRate := rfl
@[simp] theorem filterBypass_tickEn : (filterBypass s).tickEn = s.tickEn := rfl
@[simp] theorem filterBypass_ovr : (filterBypass s).ovr = s.ovr := rfl
@[simp] theorem filterBypass_tickPend : (filterBypass s).tickPend = s.tickPend := rfl
@[simp] theorem filterBypass_storeA : (filterBypass s).storeA = s.storeA := rfl
@[simp] theorem filterBypass_storeB : (filterBypass s).storeB = s.storeB := rfl
@[simp] theorem filterBypass_nv : (filterBypass s).nv = s.nv := rfl
@[simp] theorem filterBypass_ain : (filterBypass s).ain = s.ain := rfl
@[simp] theorem filterBypass_freeSpace : (filterBypass s).freeSpace = s.freeSpace := rfl
@[simp] theorem filterBypass_stim : (filterBypass s).stim = s.stim := rfl
@[simp] theorem filterBypass_trace : (filterBypass s).trace = s.trace := rfl

/-! ### filterChain -/

@[simp] theorem filterChain_mode : (filterChain s).mode = s.mode := rfl
@[simp] theorem filterChain_phase : (filterChain s).phase = s.phase := rfl
@[simp] theorem filterChain_dir : (filterChain s).dir = s.dir := rfl
@[simp] theorem filterChain_slot : (filterChain s).slot = s.slot := rfl
@[simp] theorem filterChain_pcur : (filterChain s).pcur = s.pcur := rfl
@[simp] theorem filterChain_wcur : (filterChain s).wcur = s.wcur := rfl
@[simp] theorem filterChain_gaddr : (filterChain s).gaddr = s.gaddr := rfl
@[simp] theorem filterChain_gcnt : (filterChain s).gcnt = s.gcnt := rfl
@[simp] theorem filterChain_spg : (filterChain s).spg = s.spg := rfl
@[simp] theorem filterChain_grainAct : (filterChain s).grainAct = s.grainAct := rfl
@[simp] theorem filterChain_freezeAct : (filterChain s).freezeAct = s.freezeAct := rfl
@[simp] theorem filterChain_anchor : (filterChain s).anchor = s.anchor := rfl
@[simp] theorem filterChain_endAddr : (filterChain s).endAddr = s.endAddr := rfl
@[simp] theorem filterChain_recorded : (filterChain s).recorded = s.recorded := rfl
@[simp] theorem filterChain_inSample : (filterChain s).inSample = s.inSample := rfl
@[simp] theorem filterChain_rbuf : (filterChain s).rbuf = s.rbuf := rfl
@[simp] theorem filterChain_d0 : (filterChain s).d0 = s.d0 := rfl
@[simp] theorem filterChain_d1 : (filterChain s).d1 = s.d1 := rfl
@[simp] theorem filterChain_mix : (filterChain s).mix = s.mix := rfl
@[simp] theorem filterChain_outSample : (filterChain s).outSample = quantize (highPass s).hp s.bitres.toNat := rfl
@[simp] theorem filterChain_tout : (filterChain s).tout = s.tout := rfl
@[simp] theorem filterChain_lpBuf0 : (filterChain s).lpBuf0 = BitVec.ofInt 24 (lowPass s).buf0 := rfl
@[simp] theorem filterChain_lpBuf1 : (filterChain s).lpBuf1 = BitVec.ofInt 24 (lowPass s).buf1 := rfl
@[simp] theorem filterChain_hpBuf0 : (filterChain s).hpBuf0 = BitVec.ofInt 24 (highPass s).buf0 := rfl
@[simp] theorem filterChain_hpBuf1 : (filterChain s).hpBuf1 = BitVec.ofInt 24 (highPass s).buf1 := rfl
@[simp] theorem filterChain_cutLp : (filterChain s).cutLp = s.cutLp := rfl
@[simp] theorem filterChain_fbLp : (filterChain s).fbLp = s.fbLp := rfl
@[simp] theorem filterChain_cutHp : (filterChain s).cutHp = s.cutHp := rfl
@[simp] theorem filterChain_fbHp : (filterChain s).fbHp = s.fbHp := rfl
@[simp] theorem filterChain_rate : (filterChain s).rate = s.rate := rfl
@[simp] theorem filterChain_bitres : (filterChain s).bitres = s.bitres := rfl
@[simp] theorem filterChain_grainSize : (filterChain s).grainSize = s.grainSize := rfl
@[simp] theorem filterChain_stretch : (filterChain s).stretch = s.stretch := rfl
@[simp] theorem filterChain_gest : (filterChain s).gest = s.gest := rfl
@[simp] theorem filterChain_msNow : (filterChain s).msNow = s.msNow := rfl
@[simp] theorem filterChain_tRecStart : (filterChain s).tRecStart = s.tRecStart := rfl
@[simp] theorem filterChain_tRecEnd : (filterChain s).tRecEnd = s.tRecEnd := rfl
@[simp] theorem filterChain_recRate : (filterChain s).recRate = s.recRate := rfl
@[simp] theorem filterChain_tickRate : (filterChain s).tickRate = s.tickRate := rfl
@[simp] theorem filterChain_tickEn : (filterChain s).tickEn = s.tickEn := rfl
@[simp] theorem filterChain_ovr : (filterChain s).ovr = s.ovr := rfl
@[simp] theorem filterChain_tickPend : (filterChain s).tickPend = s.tickPend := rfl
@[simp] theorem filterChain_storeA : (filterChain s).storeA = s.storeA := rfl
@[simp] theorem filterChain_storeB : (filterChain s).storeB = s.storeB := rfl
@[simp] theorem filterChain_nv : (filterChain s).nv = s.nv := rfl
@[simp] theorem filterChain_ain : (filterChain s).ain = s.ain := rfl
@[simp] theorem filterChain_freeSpace : (filterChain s).freeSpace = s.freeSpace := rfl
@[simp] theorem filterChain_stim : (filterChain s).stim = s.stim := rfl
@[simp] theorem filterChain_trace : (filterChain s).trace = s.trace := rfl

/-! ### dspStep -/

@[simp] theorem dspStep_mode : (dspStep s).mode = s.mode := by unfold dspStep; split <;> rfl
@[simp] theorem dspStep_phase : (dspStep s).phase = s.phase := by unfold dspStep; split <;> rfl
@[simp] theorem dspStep_dir : (dspStep s).dir = s.dir := by unfold dspStep; split <;> rfl
@[simp] theorem dspStep_slot : (dspStep s).slot = s.slot := by unfold dspStep; split <;> rfl
@[simp] theorem dspStep_pcur : (dspStep s).pcur = s.pcur := by unfold dspStep; split <;> rfl
@[simp] theorem dspStep_wcur : (dspStep s).wcur = s.wcur := by unfold dspStep; split <;> rfl
@[simp] theorem dspStep_gaddr : (dspStep s).gaddr = s.gaddr := by unfold dspStep; split <;> rfl
@[simp] theorem dspStep_gcnt : (dspStep s).gcnt = s.gcnt := by unfold dspStep; split <;> rfl
@[simp] theorem dspStep_spg : (dspStep s).spg = s.spg := by unfold dspStep; split <;> rfl
@[simp] theorem dspStep_grainAct : (dspStep s).grainAct = s.grainAct := by unfold dspStep; split <;> rfl
@[simp] theorem dspStep_freezeAct : (dspStep s).freezeAct = s.freezeAct := by unfold dspStep; split <;> rfl
@[simp] theorem dspStep_anchor : (dspStep s).anchor = s.anchor := by unfold dspStep; split <;> rfl
@[simp] theorem dspStep_endAddr : (dspStep s).endAddr = s.endAddr := by unfold dspStep; split <;> rfl
@[simp] theorem dspStep_recorded : (dspStep s).recorded = s.recorded := by unfold dspStep; split <;> rfl
@[simp] theorem dspStep_inSample : (dspStep s).inSample = s.inSample := by unfold dspStep; split <;> rfl
@[simp] theorem dspStep_rbuf : (dspStep s).rbuf = s.rbuf := by unfold dspStep; split <;> rfl
@[simp] theorem dspStep_d0 : (dspStep s).d0 = s.d0 := by unfold dspStep; split <;> rfl
@[simp] theorem dspStep_d1 : (dspStep s).d1 = s.d1 := by unfold dspStep; split <;> rfl
@[simp] theorem dspStep_mix : (dspStep s).mix = s.mix := by unfold dspStep; split <;> rfl
@[simp] theorem dspStep_tout : (dspStep s).tout = s.tout := by unfold dspStep; split <;> rfl
@[simp] theorem dspStep_cutLp : (dspStep s).cutLp = s.cutLp := by unfold dspStep; split <;> rfl
@[simp] theorem dspStep_fbLp : (dspStep s).fbLp = s.fbLp := by unfold dspStep; split <;> rfl
@[simp] theorem dspStep_cutHp : (dspStep s).cutHp = s.cutHp := by unfold dspStep; split <;> rfl
@[simp] theorem dspStep_fbHp : (dspStep s).fbHp = s.fbHp := by unfold dspStep; split <;> rfl
@[simp] theorem dspStep_rate : (dspStep s).rate = s.rate := by unfold dspStep; split <;> rfl
@[simp] theorem dspStep_bitres : (dspStep s).bitres = s.bitres := by unfold dspStep; split <;> rfl
@[simp] theorem dspStep_grainSize : (dspStep s).grainSize = s.grainSize := by unfold dspStep; split <;> rfl
@[simp] theorem dspStep_stretch : (dspStep s).stretch = s.stretch := by unfold dspStep; split <;> rfl
@[simp] theorem dspStep_gest : (dspStep s).gest = s.gest := by unfold dspStep; split <;> rfl
@[simp] theorem dspStep_msNow : (dspStep s).msNow = s.msNow := by unfold dspStep; split <;> rfl
@[simp] theorem dspStep_tRecStart : (dspStep s).tRecStart = s.tRecStart := by unfold dspStep; split <;> rfl
@[simp] theorem dspStep_tRecEnd : (dspStep s).tRecEnd = s.tRecEnd := by unfold dspStep; split <;> rfl
@[simp] theorem dspStep_recRate : (dspStep s).recRate = s.recRate := by unfold dspStep; split <;> rfl
@[simp] theorem dspStep_tickRate : (dspStep s).tickRate = s.tickRate := by unfold dspStep; split <;> rfl
@[simp] theorem dspStep_tickEn : (dspStep s).tickEn = s.tickEn := by unfold dspStep; split <;> rfl
@[simp] theorem dspStep_ovr : (dspStep s).ovr = s.ovr := by unfold dspStep; split <;> rfl
@[simp] theorem dspStep_tickPend : (dspStep s).tickPend = s.tickPend := by unfold dspStep; split <;> rfl
@[simp] theorem dspStep_storeA : (dspStep s).storeA = s.storeA := by unfold dspStep; split <;> rfl
@[simp] theorem dspStep_storeB : (dspStep s).storeB = s.storeB := by unfold dspStep; split <;> rfl
@[simp] theorem dspStep_nv : (dspStep s).nv = s.nv := by unfold dspStep; split <;> rfl
@[simp] theorem dspStep_ain : (dspStep s).ain = s.ain := by unfold dspStep; split <;> rfl
@[simp] theorem dspStep_freeSpace : (dspStep s).freeSpace = s.freeSpace := by unfold dspStep; split <;> rfl
@[simp] theorem dspStep_stim : (dspStep s).stim = s.stim := by unfold dspStep; split <;> rfl
@[simp] theorem dspStep_trace : (dspStep s).trace = s.trace := by unfold dspStep; split <;> rfl

/-! ### updateDir -/

@[simp] theorem updateDir_mode : (updateDir s).mode = s.mode := rfl
@[simp] theorem updateDir_phase : (updateDir s).phase = s.phase := rfl
@[simp] theorem updateDir_dir : (updateDir s).dir = gestRev s.gest := rfl
@[simp] theorem updateDir_slot : (updateDir s).slot = s.slot := rfl
@[simp] theorem updateDir_pcur : (updateDir s).pcur = s.pcur := rfl
@[simp] theorem updateDir_wcur : (updateDir s).wcur = s.wcur := rfl
@[simp] theorem updateDir_gaddr : (updateDir s).gaddr = s.gaddr := rfl
@[simp] theorem updateDir_gcnt : (updateDir s).gcnt = s.gcnt := rfl
@[simp] theorem updateDir_spg : (updateDir s).spg = s.spg := rfl
@[simp] theorem updateDir_grainAct : (updateDir s).grainAct = s.grainAct := rfl
@[simp] theorem updateDir_freezeAct : (updateDir s).freezeAct = s.freezeAct := rfl
@[simp] theorem updateDir_anchor : (updateDir s).anchor = s.anchor := rfl
@[simp] theorem updateDir_endAddr : (updateDir s).endAddr = s.endAddr := rfl
@[simp] theorem updateDir_recorded : (updateDir s).recorded = s.recorded := rfl
@[simp] theorem updateDir_inSample : (updateDir s).inSample = s.inSample := rfl
@[simp] theorem updateDir_rbuf : (updateDir s).rbuf = s.rbuf := rfl
@[simp] theorem updateDir_d0 : (updateDir s).d0 = s.d0 := rfl
@[simp] theorem updateDir_d1 : (updateDir s).d1 = s.d1 := rfl
@[simp] theorem updateDir_mix : (updateDir s).mix = s.mix := rfl
@[simp] theorem updateDir_outSample : (updateDir s).outSample = s.outSample := rfl
@[simp] theorem updateDir_tout : (updateDir s).tout = s.tout := rfl
@[simp] theorem updateDir_lpBuf0 : (updateDir s).lpBuf0 = s.lpBuf0 := rfl
@[simp] theorem updateDir_lpBuf1 : (updateDir s).lpBuf1 = s.lpBuf1 := rfl
@[simp] theorem updateDir_hpBuf0 : (updateDir s).hpBuf0 = s.hpBuf0 := rfl
@[simp] theorem updateDir_hpBuf1 : (updateDir s).hpBuf1 = s.hpBuf1 := rfl
@[simp] theorem updateDir_cutLp : (updateDir s).cutLp = s.cutLp := rfl
@[simp] theorem updateDir_fbLp : (updateDir s).fbLp = s.fbLp := rfl
@[simp] theorem updateDir_cutHp : (updateDir s).cutHp = s.cutHp := rfl
@[simp] theorem updateDir_fbHp : (updateDir s).fbHp = s.fbHp := rfl
@[simp] theorem updateDir_rate : (updateDir s).rate = s.rate := rfl
@[simp] theorem updateDir_bitres : (updateDir s).bitres = s.bitres := rfl
@[simp] theorem updateDir_grainSize : (updateDir s).grainSize = s.grainSize := rfl
@[simp] theorem updateDir_stretch : (updateDir s).stretch = s.stretch := rfl
@[simp] theorem updateDir_gest : (updateDir s).gest = s.gest := rfl
@[simp] theorem updateDir_msNow : (updateDir s).msNow = s.msNow := rfl
@[simp] theorem updateDir_tRecStart : (updateDir s).tRecStart = s.tRecStart := rfl
@[simp] theorem updateDir_tRecEnd : (updateDir s).tRecEnd = s.tRecEnd := rfl
@[simp] theorem updateDir_recRate : (updateDir s).recRate = s.recRate := rfl
@[simp] theorem updateDir_tickRate : (updateDir s).tickRate = s.tickRate := rfl
@[simp] theorem updateDir_tickEn : (updateDir s).tickEn = s.tickEn := rfl
@[simp] theorem updateDir_ovr : (updateDir s).ovr = s.ovr := rfl
@[simp] theorem updateDir_tickPend : (updateDir s).tickPend = s.tickPend := rfl
@[simp] theorem updateDir_storeA : (updateDir s).storeA = s.storeA := rfl
@[simp] theorem updateDir_storeB : (updateDir s).storeB = s.storeB := rfl
@[simp] theorem updateDir_nv : (updateDir s).nv = s.nv := rfl
@[simp] theorem updateDir_ain : (updateDir s).ain = s.ain := rfl
@[simp] theorem updateDir_freeSpace : (updateDir s).freeSpace = s.freeSpace := rfl
@[simp] theorem updateDir_stim : (updateDir s).stim = s.stim := rfl
@[simp] theorem updateDir_trace : (updateDir s).trace = s.trace := rfl

/-! ### updateSpg -/

@[simp] theorem updateSpg_mode : (updateSpg s).mode = s.mode := rfl
@[simp] theorem updateSpg_phase : (updateSpg s).phase = s.phase := rfl
@[simp] theorem updateSpg_dir : (updateSpg s).dir = s.dir := rfl
@[simp] theorem updateSpg_slot : (updateSpg s).slot = s.slot := rfl
@[simp] theorem updateSpg_pcur : (updateSpg s).pcur = s.pcur := rfl
@[simp] theorem updateSpg_wcur : (updateSpg s).wcur = s.wcur := rfl
@[simp] theorem updateSpg_gaddr : (updateSpg s).gaddr = s.gaddr := rfl
@[simp] theorem updateSpg_gcnt : (updateSpg s).gcnt = s.gcnt := rfl
@[simp] theorem updateSpg_spg : (updateSpg s).spg = BitVec.ofNat 24 (spgCalc s.stretch.toNat s.grainSize.toNat s.rate.toNat s.recRate.toNat) := rfl
@[simp] theorem updateSpg_grainAct : (updateSpg s).grainAct = s.grainAct := rfl
@[simp] theorem updateSpg_freezeAct : (updateSpg s).freezeAct = s.freezeAct := rfl
@[simp] theorem updateSpg_anchor : (updateSpg s).anchor = s.anchor := rfl
@[simp] theorem updateSpg_endAddr : (updateSpg s).endAddr = s.endAddr := rfl
@[simp] theorem updateSpg_recorded : (updateSpg s).recorded = s.recorded := rfl
@[simp] theorem updateSpg_inSample : (updateSpg s).inSample = s.inSample := rfl
@[simp] theorem updateSpg_rbuf : (updateSpg s).rbuf = s.rbuf := rfl
@[simp] theorem updateSpg_d0 : (updateSpg s).d0 = s.d0 := rfl
@[simp] theorem updateSpg_d1 : (updateSpg s).d1 = s.d1 := rfl
@[simp] theorem updateSpg_mix : (updateSpg s).mix = s.mix := rfl
@[simp] theorem updateSpg_outSample : (updateSpg s).outSample = s.outSample := rfl
@[simp] theorem updateSpg_tout : (updateSpg s).tout = s.tout := rfl
@[simp] theorem updateSpg_lpBuf0 : (updateSpg s).lpBuf0 = s.lpBuf0 := rfl
@[simp] theorem updateSpg_lpBuf1 : (updateSpg s).lpBuf1 = s.lpBuf1 := rfl
@[simp] theorem updateSpg_hpBuf0 : (updateSpg s).hpBuf0 = s.hpBuf0 := rfl
@[simp] theorem updateSpg_hpBuf1 : (updateSpg s).hpBuf1 = s.hpBuf1 := rfl
@[simp] theorem updateSpg_cutLp : (updateSpg s).cutLp = s.cutLp := rfl
@[simp] theorem updateSpg_fbLp : (updateSpg s).fbLp = s.fbLp := rfl
@[simp] theorem updateSpg_cutHp : (updateSpg s).cutHp = s.cutHp := rfl
@[simp] theorem updateSpg_fbHp : (updateSpg s).fbHp = s.fbHp := rfl
@[simp] theorem updateSpg_rate : (updateSpg s).rate = s.rate := rfl
@[simp] theorem updateSpg_bitres : (updateSpg s).bitres = s.bitres := rfl
@[simp] theorem updateSpg_grainSize : (updateSpg s).grainSize = s.grainSize := rfl
@[simp] theorem updateSpg_stretch : (updateSpg s).stretch = s.stretch := rfl
@[simp] theorem updateSpg_gest : (updateSpg s).gest = s.gest := rfl
@[simp] theorem updateSpg_msNow : (updateSpg s).msNow = s.msNow := rfl
@[simp] theorem updateSpg_tRecStart : (updateSpg s).tRecStart = s.tRecStart := rfl
@[simp] theorem updateSpg_tRecEnd : (updateSpg s).tRecEnd = s.tRecEnd := rfl
@[simp] theorem updateSpg_recRate : (updateSpg s).recRate = s.recRate := rfl
@[simp] theorem updateSpg_tickRate : (updateSpg s).tickRate = s.tickRate := rfl
@[simp] theorem updateSpg_tickEn : (updateSpg s).tickEn = s.tickEn := rfl
@[simp] theorem updateSpg_ovr : (updateSpg s).ovr = s.ovr := rfl
@[simp] theorem updateSpg_tickPend : (updateSpg s).tickPend = s.tickPend := rfl
@[simp] theorem updateSpg_storeA : (updateSpg s).storeA = s.storeA := rfl
@[simp] theorem updateSpg_storeB : (updateSpg s).storeB = s.storeB := rfl
@[simp] theorem updateSpg_nv : (updateSpg s).nv = s.nv := rfl
@[simp] theorem updateSpg_ain : (updateSpg s).ain = s.ain := rfl
@[simp] theorem updateSpg_freeSpace : (updateSpg s).freeSpace = s.freeSpace := rfl
@[simp] theorem updateSpg_stim : (updateSpg s).stim = s.stim := rfl
@[simp] theorem updateSpg_trace : (updateSpg s).trace = s.trace := rfl

/-! ### startRecord -/

@[simp] theorem startRecord_mode (k : SlotId) : (startRecord k s).mode = .record := rfl
@[simp] theorem startRecord_phase (k : SlotId) : (startRecord k s).phase = s.phase := rfl
@[simp] theorem startRecord_dir (k : SlotId) : (startRecord k s).dir = s.dir := rfl
@[simp] theorem startRecord_slot (k : SlotId) : (startRecord k s).slot = k := rfl
@[simp] theorem startRecord_pcur (k : SlotId) : (startRecord k s).pcur = s.pcur := rfl
@[simp] theorem startRecord_wcur (k : SlotId) : (startRecord k s).wcur = toCursor (origin k) := rfl
@[simp] theorem startRecord_gaddr (k : SlotId) : (startRecord k s).gaddr = s.gaddr := rfl
@[simp] theorem startRecord_gcnt (k : SlotId) : (startRecord k s).gcnt = s.gcnt := rfl
@[simp] theorem startRecord_spg (k : SlotId) : (startRecord k s).spg = s.spg := rfl
@[simp] theorem startRecord_grainAct (k : SlotId) : (startRecord k s).grainAct = s.grainAct := rfl
@[simp] theorem startRecord_freezeAct (k : SlotId) : (startRecord k s).freezeAct = s.freezeAct := rfl
@[simp] theorem startRecord_anchor (k : SlotId) : (startRecord k s).anchor = s.anchor := rfl
@[simp] theorem startRecord_endAddr (k : SlotId) : (startRecord k s).endAddr = s.endAddr := rfl
@[simp] theorem startRecord_recorded (k : SlotId) : (startRecord k s).recorded = s.recorded := rfl
@[simp] theorem startRecord_inSample (k : SlotId) : (startRecord k s).inSample = s.inSample := rfl
@[simp] theorem startRecord_rbuf (k : SlotId) : (startRecord k s).rbuf = s.rbuf := rfl
@[simp] theorem startRecord_d0 (k : SlotId) : (startRecord k s).d0 = s.d0 := rfl
@[simp] theorem startRecord_d1 (k : SlotId) : (startRecord k s).d1 = s.d1 := rfl
@[simp] theorem startRecord_mix (k : SlotId) : (startRecord k s).mix = s.mix := rfl
@[simp] theorem startRecord_outSample (k : SlotId) : (startRecord k s).outSample = s.outSample := rfl
@[simp] theorem startRecord_tout (k : SlotId) : (startRecord k s).tout = s.tout := rfl
@[simp] theorem startRecord_lpBuf0 (k : SlotId) : (startRecord k s).lpBuf0 = s.lpBuf0 := rfl
@[simp] theorem startRecord_lpBuf1 (k : SlotId) : (startRecord k s).lpBuf1 = s.lpBuf1 := rfl
@[simp] theorem startRecord_hpBuf0 (k : SlotId) : (startRecord k s).hpBuf0 = s.hpBuf0 := rfl
@[simp] theorem startRecord_hpBuf1 (k : SlotId) : (startRecord k s).hpBuf1 = s.hpBuf1 := rfl
@[simp] theorem startRecord_cutLp (k : SlotId) : (startRecord k s).cutLp = s.cutLp := rfl
@[simp] theorem startRecord_fbLp (k : SlotId) : (startRecord k s).fbLp = s.fbLp := rfl
@[simp] theorem startRecord_cutHp (k : SlotId) : (startRecord k s).cutHp = s.cutHp := rfl
@[simp] theorem startRecord_fbHp (k : SlotId) : (startRecord k s).fbHp = s.fbHp := rfl
@[simp] theorem startRecord_rate (k : SlotId) : (startRecord k s).rate = s.rate := rfl
@[simp] theorem startRecord_bitres (k : SlotId) : (startRecord k s).bitres = s.bitres := rfl
@[simp] theorem startRecord_grainSize (k : SlotId) : (startRecord k s).grainSize = s.grainSize := rfl
@[simp] theorem startRecord_stretch (k : SlotId) : (startRecord k s).stretch = s.stretch := rfl
@[simp] theorem startRecord_gest (k : SlotId) : (startRecord k s).gest = s.gest := rfl
@[simp] theorem startRecord_msNow (k : SlotId) : (startRecord k s).msNow = s.msNow := rfl
@[simp] theorem startRecord_tRecStart (k : SlotId) : (startRecord k s).tRecStart = s.msNow := rfl
@[simp] theorem startRecord_tRecEnd (k : SlotId) : (startRecord k s).tRecEnd = s.tRecEnd := rfl
@[simp] theorem startRecord_recRate (k : SlotId) : (startRecord k s).recRate = s.rate := rfl
@[simp] theorem startRecord_tickRate (k : SlotId) : (startRecord k s).tickRate = s.rate := rfl
@[simp] theorem startRecord_tickEn (k : SlotId) : (startRecord k s).tickEn = s.tickEn := rfl
@[simp] theorem startRecord_ovr (k : SlotId) : (startRecord k s).ovr = s.ovr := rfl
@[simp] theorem startRecord_tickPend (k : SlotId) : (startRecord k s).tickPend = s.tickPend := rfl
@[simp] theorem startRecord_storeA (k : SlotId) : (startRecord k s).storeA = s.storeA := rfl
@[simp] theorem startRecord_storeB (k : SlotId) : (startRecord k s).storeB = s.storeB := rfl
@[simp] theorem startRecord_nv (k : SlotId) : (startRecord k s).nv = s.nv := rfl
@[simp] theorem startRecord_ain (k : SlotId) : (startRecord k s).ain = s.ain := rfl
@[simp] theorem startRecord_freeSpace (k : SlotId) : (startRecord k s).freeSpace = s.freeSpace := rfl
@[simp] theorem startRecord_stim (k : SlotId) : (startRecord k s).stim = s.stim := rfl
@[simp] theorem startRecord_trace (k : SlotId) : (startRecord k s).trace = s.trace := rfl

/-! ### startPlay -/

@[simp] theorem startPlay_mode (k : SlotId) : (startPlay k s).mode = .playback := rfl
@[simp] theorem startPlay_phase (k : SlotId) : (startPlay k s).phase = s.phase := rfl
@[simp] theorem startPlay_dir (k : SlotId) : (startPlay k s).dir = s.dir := rfl
@[simp] theorem startPlay_slot (k : SlotId) : (startPlay k s).slot = k := rfl
@[simp] theorem startPlay_pcur (k : SlotId) : (startPlay k s).pcur = toCursor (startOf s k) := rfl
@[simp] theorem startPlay_wcur (k : SlotId) : (startPlay k s).wcur = s.wcur := rfl
@[simp] theorem startPlay_gaddr (k : SlotId) : (startPlay k s).gaddr = toCursor (startOf s k) := rfl
@[simp] theorem startPlay_gcnt (k : SlotId) : (startPlay k s).gcnt = 0#24 := rfl
@[simp] theorem startPlay_spg (k : SlotId) : (startPlay k s).spg = s.spg := rfl
@[simp] theorem startPlay_grainAct (k : SlotId) : (startPlay k s).grainAct = s.grainAct := rfl
@[simp] theorem startPlay_freezeAct (k : SlotId) : (startPlay k s).freezeAct = s.freezeAct := rfl
@[simp] theorem startPlay_anchor (k : SlotId) : (startPlay k s).anchor = s.anchor := rfl
@[simp] theorem startPlay_endAddr (k : SlotId) : (startPlay k s).endAddr = s.endAddr := rfl
@[simp] theorem startPlay_recorded (k : SlotId) : (startPlay k s).recorded = s.recorded := rfl
@[simp] theorem startPlay_inSample (k : SlotId) : (startPlay k s).inSample = s.inSample := rfl
@[simp] theorem startPlay_rbuf (k : SlotId) : (startPlay k s).rbuf = s.rbuf := rfl
@[simp] theorem startPlay_d0 (k : SlotId) : (startPlay k s).d0 = s.d0 := rfl
@[simp] theorem startPlay_d1 (k : SlotId) : (startPlay k s).d1 = s.d1 := rfl
@[simp] theorem startPlay_mix (k : SlotId) : (startPlay k s).mix = s.mix := rfl
@[simp] theorem startPlay_outSample (k : SlotId) : (startPlay k s).outSample = s.outSample := rfl
@[simp] theorem startPlay_tout (k : SlotId) : (startPlay k s).tout = s.tout := rfl
@[simp] theorem startPlay_lpBuf0 (k : SlotId) : (startPlay k s).lpBuf0 = s.lpBuf0 := rfl
@[simp] theorem startPlay_lpBuf1 (k : SlotId) : (startPlay k s).lpBuf1 = s.lpBuf1 := rfl
@[simp] theorem startPlay_hpBuf0 (k : SlotId) : (startPlay k s).hpBuf0 = s.hpBuf0 := rfl
@[simp] theorem startPlay_hpBuf1 (k : SlotId) : (startPlay k s).hpBuf1 = s.hpBuf1 := rfl
@[simp] theorem startPlay_cutLp (k : SlotId) : (startPlay k s).cutLp = s.cutLp := rfl
@[simp] theorem startPlay_fbLp (k : SlotId) : (startPlay k s).fbLp = s.fbLp := rfl
@[simp] theorem startPlay_cutHp (k : SlotId) : (startPlay k s).cutHp = s.cutHp := rfl
@[simp] theorem startPlay_fbHp (k : SlotId) : (startPlay k s).fbHp = s.fbHp := rfl
@[simp] theorem startPlay_rate (k : SlotId) : (startPlay k s).rate = s.rate := rfl
@[simp] theorem startPlay_bitres (k : SlotId) : (startPlay k s).bitres = s.bitres := rfl
@[simp] theorem startPlay_grainSize (k : SlotId) : (startPlay k s).grainSize = s.grainSize := rfl
@[simp] theorem startPlay_stretch (k : SlotId) : (startPlay k s).stretch = s.stretch := rfl
@[simp] theorem startPlay_gest (k : SlotId) : (startPlay k s).gest = s.gest := rfl
@[simp] theorem startPlay_msNow (k : SlotId) : (startPlay k s).msNow = s.msNow := rfl
@[simp] theorem startPlay_tRecStart (k : SlotId) : (startPlay k s).tRecStart = s.tRecStart := rfl
@[simp] theorem startPlay_tRecEnd (k : SlotId) : (startPlay k s).tRecEnd = s.tRecEnd := rfl
@[simp] theorem startPlay_recRate (k : SlotId) : (startPlay k s).recRate = s.recRate := rfl
@[simp] theorem startPlay_tickRate (k : SlotId) : (startPlay k s).tickRate = s.tickRate := rfl
@[simp] theorem startPlay_tickEn (k : SlotId) : (startPlay k s).tickEn = s.tickEn := rfl
@[simp] theorem startPlay_ovr (k : SlotId) : (startPlay k s).ovr = s.ovr := rfl
@[simp] theorem startPlay_tickPend (k : SlotId) : (startPlay k s).tickPend = s.tickPend := rfl
@[simp] theorem startPlay_storeA (k : SlotId) : (startPlay k s).storeA = s.storeA := rfl
@[simp] theorem startPlay_storeB (k : SlotId) : (startPlay k s).storeB = s.storeB := rfl
@[simp] theorem startPlay_nv (k : SlotId) : (startPlay k s).nv = s.nv := rfl
@[simp] theorem startPlay_ain (k : SlotId) : (startPlay k s).ain = s.ain := rfl
@[simp] theorem startPlay_freeSpace (k : SlotId) : (startPlay k s).freeSpace = s.freeSpace := rfl
@[simp] theorem startPlay_stim (k : SlotId) : (startPlay k s).stim = s.stim := rfl
@[simp] theorem startPlay_trace (k : SlotId) : (startPlay k s).trace = s.trace := rfl

/-! ### stopPlay -/

@[simp] theorem stopPlay_mode : (stopPlay s).mode = .passthrough := rfl
@[simp] theorem stopPlay_phase : (stopPlay s).phase = s.phase := rfl
@[simp] theorem stopPlay_dir : (stopPlay s).dir = s.dir := rfl
@[simp] theorem stopPlay_slot : (stopPlay s).slot = s.slot := rfl
@[simp] theorem stopPlay_pcur : (stopPlay s).pcur = s.pcur := rfl
@[simp] theorem stopPlay_wcur : (stopPlay s).wcur = s.wcur := rfl
@[simp] theorem stopPlay_gaddr : (stopPlay s).gaddr = s.gaddr := rfl
@[simp] theorem stopPlay_gcnt : (stopPlay s).gcnt = s.gcnt := rfl
@[simp] theorem stopPlay_spg : (stopPlay s).spg = s.spg := rfl
@[simp] theorem stopPlay_grainAct : (stopPlay s).grainAct = s.grainAct := rfl
@[simp] theorem stopPlay_freezeAct : (stopPlay s).freezeAct = s.freezeAct := rfl
@[simp] theorem stopPlay_anchor : (stopPlay s).anchor = s.anchor := rfl
@[simp] theorem stopPlay_endAddr : (stopPlay s).endAddr = s.endAddr := rfl
@[simp] theorem stopPlay_recorded : (stopPlay s).recorded = s.recorded := rfl
@[simp] theorem stopPlay_inSample : (stopPlay s).inSample = s.inSample := rfl
@[simp] theorem stopPlay_rbuf : (stopPlay s).rbuf = s.rbuf := rfl
@[simp] theorem stopPlay_d0 : (stopPlay s).d0 = s.d0 := rfl
@[simp] theorem stopPlay_d1 : (stopPlay s).d1 = s.d1 := rfl
@[simp] theorem stopPlay_mix : (stopPlay s).mix = s.mix := rfl
@[simp] theorem stopPlay_outSample : (stopPlay s).outSample = s.outSample := rfl
@[simp] theorem stopPlay_tout : (stopPlay s).tout = s.tout := rfl
@[simp] theorem stopPlay_lpBuf0 : (stopPlay s).lpBuf0 = s.lpBuf0 := rfl
@[simp] theorem stopPlay_lpBuf1 : (stopPlay s).lpBuf1 = s.lpBuf1 := rfl
@[simp] theorem stopPlay_hpBuf0 : (stopPlay s).hpBuf0 = s.hpBuf0 := rfl
@[simp] theorem stopPlay_hpBuf1 : (stopPlay s).hpBuf1 = s.hpBuf1 := rfl
@[simp] theorem stopPlay_cutLp : (stopPlay s).cutLp = s.cutLp := rfl
@[simp] theorem stopPlay_fbLp : (stopPlay s).fbLp = s.fbLp := rfl
@[simp] theorem stopPlay_cutHp : (stopPlay s).cutHp = s.cutHp := rfl
@[simp] theorem stopPlay_fbHp : (stopPlay s).fbHp = s.fbHp := rfl
@[simp] theorem stopPlay_rate : (stopPlay s).rate = s.rate := rfl
@[simp] theorem stopPlay_bitres : (stopPlay s).bitres = s.bitres := rfl
@[simp] theorem stopPlay_grainSize : (stopPlay s).grainSize = s.grainSize := rfl
@[simp] theorem stopPlay_stretch : (stopPlay s).stretch = s.stretch := rfl
@[simp] theorem stopPlay_gest : (stopPlay s).gest = s.gest := rfl
@[simp] theorem stopPlay_msNow : (stopPlay s).msNow = s.msNow := rfl
@[simp] theorem stopPlay_tRecStart : (stopPlay s).tRecStart = s.tRecStart := rfl
@[simp] theorem stopPlay_tRecEnd : (stopPlay s).tRecEnd = s.tRecEnd := rfl
@[simp] theorem stopPlay_recRate : (stopPlay s).recRate = s.recRate := rfl
@[simp] theorem stopPlay_tickRate : (stopPlay s).tickRate = s.tickRate := rfl
@[simp] theorem stopPlay_tickEn : (stopPlay s).tickEn = s.tickEn := rfl
@[simp] theorem stopPlay_ovr : (stopPlay s).ovr = s.ovr := rfl
@[simp] theorem stopPlay_tickPend : (stopPlay s).tickPend = s.tickPend := rfl
@[simp] theorem stopPlay_storeA : (stopPlay s).storeA = s.storeA := rfl
@[simp] theorem stopPlay_storeB : (stopPlay s).storeB = s.storeB := rfl
@[simp] theorem stopPlay_nv : (stopPlay s).nv = s.nv := rfl
@[simp] theorem stopPlay_ain : (stopPlay s).ain = s.ain := rfl
@[simp] theorem stopPlay_freeSpace : (stopPlay s).freeSpace = s.freeSpace := rfl
@[simp] theorem stopPlay_stim : (stopPlay s).stim = s.stim := rfl
@[simp] theorem stopPlay_trace : (stopPlay s).trace = s.trace := rfl

/-! ### persistEnd -/

@[simp] theorem persistEnd_mode (k : SlotId) : (persistEnd k s).mode = s.mode := by simp [persistEnd]
@[simp] theorem persistEnd_phase (k : SlotId) : (persistEnd k s).phase = s.phase := by simp [persistEnd]
@[simp] theorem persistEnd_dir (k : SlotId) : (persistEnd k s).dir = s.dir := by simp [persistEnd]
@[simp] theorem persistEnd_slot (k : SlotId) : (persistEnd k s).slot = s.slot := by simp [persistEnd]
@[simp] theorem persistEnd_pcur (k : SlotId) : (persistEnd k s).pcur = s.pcur := by simp [persistEnd]
@[simp] theorem persistEnd_wcur (k : SlotId) : (persistEnd k s).wcur = s.wcur := by simp [persistEnd]
@[simp] theorem persistEnd_gaddr (k : SlotId) : (persistEnd k s).gaddr = s.gaddr := by simp [persistEnd]
@[simp] theorem persistEnd_gcnt (k : SlotId) : (persistEnd k s).gcnt = s.gcnt := by simp [persistEnd]
@[simp] theorem persistEnd_spg (k : SlotId) : (persistEnd k s).spg = s.spg := by simp [persistEnd]
@[simp] theorem persistEnd_grainAct (k : SlotId) : (persistEnd k s).grainAct = s.grainAct := by simp [persistEnd]
@[simp] theorem persistEnd_freezeAct (k : SlotId) : (persistEnd k s).freezeAct = s.freezeAct := by simp [persistEnd]
@[simp] theorem persistEnd_anchor (k : SlotId) : (persistEnd k s).anchor = s.anchor := by simp [persistEnd]
@[simp] theorem persistEnd_endAddr (k : SlotId) : (persistEnd k s).endAddr = s.endAddr := by simp [persistEnd]
@[simp] theorem persistEnd_recorded (k : SlotId) : (persistEnd k s).recorded = s.recorded := by simp [persistEnd]
@[simp] theorem persistEnd_inSample (k : SlotId) : (persistEnd k s).inSample = s.inSample := by simp [persistEnd]
@[simp] theorem persistEnd_rbuf (k : SlotId) : (persistEnd k s).rbuf = s.rbuf := by simp [persistEnd]
@[simp] theorem persistEnd_d0 (k : SlotId) : (persistEnd k s).d0 = s.d0 := by simp [persistEnd]
@[simp] theorem persistEnd_d1 (k : SlotId) : (persistEnd k s).d1 = s.d1 := by simp [persistEnd]
@[simp] theorem persistEnd_mix (k : SlotId) : (persistEnd k s).mix = s.mix := by simp [persistEnd]
@[simp] theorem persistEnd_outSample (k : SlotId) : (persistEnd k s).outSample = s.outSample := by simp [persistEnd]
@[simp] theorem persistEnd_tout (k : SlotId) : (persistEnd k s).tout = s.tout := by simp [persistEnd]
@[simp] theorem persistEnd_lpBuf0 (k : SlotId) : (persistEnd k s).lpBuf0 = s.lpBuf0 := by simp [persistEnd]
@[simp] theorem persistEnd_lpBuf1 (k : SlotId) : (persistEnd k s).lpBuf1 = s.lpBuf1 := by simp [persistEnd]
@[simp] theorem persistEnd_hpBuf0 (k : SlotId) : (persistEnd k s).hpBuf0 = s.hpBuf0 := by simp [persistEnd]
@[simp] theorem persistEnd_hpBuf1 (k : SlotId) : (persistEnd k s).hpBuf1 = s.hpBuf1 := by simp [persistEnd]
@[simp] theorem persistEnd_cutLp (k : SlotId) : (persistEnd k s).cutLp = s.cutLp := by simp [persistEnd]
@[simp] theorem persistEnd_fbLp (k : SlotId) : (persistEnd k s).fbLp = s.fbLp := by simp [persistEnd]
@[simp] theorem persistEnd_cutHp (k : SlotId) : (persistEnd k s).cutHp = s.cutHp := by simp [persistEnd]
@[simp] theorem persistEnd_fbHp (k : SlotId) : (persistEnd k s).fbHp = s.fbHp := by simp [persistEnd]
@[simp] theorem persistEnd_rate (k : SlotId) : (persistEnd k s).rate = s.rate := by simp [persistEnd]
@[simp] theorem persistEnd_bitres (k : SlotId) : (persistEnd k s).bitres = s.bitres := by simp [persistEnd]
@[simp] theorem persistEnd_grainSize (k : SlotId) : (persistEnd k s).grainSize = s.grainSize := by simp [persistEnd]
@[simp] theorem persistEnd_stretch (k : SlotId) : (persistEnd k s).stretch = s.stretch := by simp [persistEnd]
@[simp] theorem persistEnd_gest (k : SlotId) : (persistEnd k s).gest = s.gest := by simp [persistEnd]
@[simp] theorem persistEnd_msNow (k : SlotId) : (persistEnd k s).msNow = s.msNow := by simp [persistEnd]
@[simp] theorem persistEnd_tRecStart (k : SlotId) : (persistEnd k s).tRecStart = s.tRecStart := by simp [persistEnd]
@[simp] theorem persistEnd_tRecEnd (k : SlotId) : (persistEnd k s).tRecEnd = s.tRecEnd := by simp [persistEnd]
@[simp] theorem persistEnd_recRate (k : SlotId) : (persistEnd k s).recRate = s.recRate := by simp [persistEnd]
@[simp] theorem persistEnd_tickRate (k : SlotId) : (persistEnd k s).tickRate = s.tickRate := by simp [persistEnd]
@[simp] theorem persistEnd_tickEn (k : SlotId) : (persistEnd k s).tickEn = s.tickEn := by simp [persistEnd]
@[simp] theorem persistEnd_ovr (k : SlotId) : (persistEnd k s).ovr = s.ovr := by simp [persistEnd]
@[simp] theorem persistEnd_tickPend (k : SlotId) : (persistEnd k s).tickPend = s.tickPend := by simp [persistEnd]
@[simp] theorem persistEnd_storeA (k : SlotId) : (persistEnd k s).storeA = s.storeA := by simp [persistEnd]
@[simp] theorem persistEnd_storeB (k : SlotId) : (persistEnd k s).storeB = s.storeB := by simp [persistEnd]
@[simp] theorem persistEnd_ain (k : SlotId) : (persistEnd k s).ain = s.ain := by simp [persistEnd]
@[simp] theorem persistEnd_freeSpace (k : SlotId) : (persistEnd k s).freeSpace = s.freeSpace := by simp [persistEnd]
@[simp] theorem persistEnd_stim (k : SlotId) : (persistEnd k s).stim = s.stim := by simp [persistEnd]

/-! ### commit -/

@[simp] theorem commit_mode : (commit s).mode = .passthrough := by simp [commit]
@[simp] theorem commit_phase : (commit s).phase = s.phase := by simp [commit]
@[simp] theorem commit_dir : (commit s).dir = s.dir := by simp [commit]
@[simp] theorem commit_slot : (commit s).slot = s.slot := by simp [commit]
@[simp] theorem commit_pcur : (commit s).pcur = s.pcur := by simp [commit]
@[simp] theorem commit_wcur : (commit s).wcur = s.wcur := by simp [commit]
@[simp] theorem commit_gaddr : (commit s).gaddr = s.gaddr := by simp [commit]
@[simp] theorem commit_gcnt : (commit s).gcnt = s.gcnt := by simp [commit]
@[simp] theorem commit_spg : (commit s).spg = s.spg := by simp [commit]
@[simp] theorem commit_grainAct : (commit s).grainAct = s.grainAct := by simp [commit]
@[simp] theorem commit_freezeAct : (commit s).freezeAct = s.freezeAct := by simp [commit]
@[simp] theorem commit_anchor : (commit s).anchor = s.anchor := by simp [commit]
@[simp] theorem commit_endAddr : (commit s).endAddr = slotSet s.endAddr s.slot (s.wcur.setWidth 24) := by simp [commit]
@[simp] theorem commit_recorded : (commit s).recorded = slotSet s.recorded s.slot true := by simp [commit]
@[simp] theorem commit_inSample : (commit s).inSample = s.inSample := by simp [commit]
@[simp] theorem commit_rbuf : (commit s).rbuf = s.rbuf := by simp [commit]
@[simp] theorem commit_d0 : (commit s).d0 = s.d0 := by simp [commit]
@[simp] theorem commit_d1 : (commit s).d1 = s.d1 := by simp [commit]
@[simp] theorem commit_mix : (commit s).mix = s.mix := by simp [commit]
@[simp] theorem commit_outSample : (commit s).outSample = s.outSample := by simp [commit]
@[simp] theorem commit_tout : (commit s).tout = s.tout := by simp [commit]
@[simp] theorem commit_lpBuf0 : (commit s).lpBuf0 = s.lpBuf0 := by simp [commit]
@[simp] theorem commit_lpBuf1 : (commit s).lpBuf1 = s.lpBuf1 := by simp [commit]
@[simp] theorem commit_hpBuf0 : (commit s).hpBuf0 = s.hpBuf0 := by simp [commit]
@[simp] theorem commit_hpBuf1 : (commit s).hpBuf1 = s.hpBuf1 := by simp [commit]
@[simp] theorem commit_cutLp : (commit s).cutLp = s.cutLp := by simp [commit]
@[simp] theorem commit_fbLp : (commit s).fbLp = s.fbLp := by simp [commit]
@[simp] theorem commit_cutHp : (commit s).cutHp = s.cutHp := by simp [commit]
@[simp] theorem commit_fbHp : (commit s).fbHp = s.fbHp := by simp [commit]
@[simp] theorem commit_rate : (commit s).rate = s.rate := by simp [commit]
@[simp] theorem commit_bitres : (commit s).bitres = s.bitres := by simp [commit]
@[simp] theorem commit_grainSize : (commit s).grainSize = s.grainSize := by simp [commit]
@[simp] theorem commit_stretch : (commit s).stretch = s.stretch := by simp [commit]
@[simp] theorem commit_gest : (commit s).gest = s.gest := by simp [commit]
@[simp] theorem commit_msNow : (commit s).msNow = s.msNow := by simp [commit]
@[simp] theorem commit_tRecStart : (commit s).tRecStart = s.tRecStart := by simp [commit]
@[simp] theorem commit_tRecEnd : (commit s).tRecEnd = s.msNow := by simp [commit]
@[simp] theorem commit_recRate : (commit s).recRate = s.recRate := by simp [commit]
@[simp] theorem commit_tickRate : (commit s).tickRate = s.tickRate := by simp [commit]
@[simp] theorem commit_tickEn : (commit s).tickEn = s.tickEn := by simp [commit]
@[simp] theorem commit_ovr : (commit s).ovr = s.ovr := by simp [commit]
@[simp] theorem commit_tickPend : (commit s).tickPend = s.tickPend := by simp [commit]
@[simp] theorem commit_storeA : (commit s).storeA = s.storeA := by simp [commit]
@[simp] theorem commit_storeB : (commit s).storeB = s.storeB := by simp [commit]
@[simp] theorem commit_ain : (commit s).ain = s.ain := by simp [commit]
@[simp] theorem commit_freeSpace : (commit s).freeSpace = s.freeSpace := by simp [commit]
@[simp] theorem commit_stim : (commit s).stim = s.stim := by simp [commit]

/-! ### armFreeze -/

@[simp] theorem armFreeze_mode : (armFreeze s).mode = s.mode := by unfold armFreeze; split <;> rfl
@[simp] theorem armFreeze_phase : (armFreeze s).phase = s.phase := by unfold armFreeze; split <;> rfl
@[simp] theorem armFreeze_dir : (armFreeze s).dir = s.dir := by unfold armFreeze; split <;> rfl
@[simp] theorem armFreeze_slot : (armFreeze s).slot = s.slot := by unfold armFreeze; split <;> rfl
@[simp] theorem armFreeze_pcur : (armFreeze s).pcur = s.pcur := by unfold armFreeze; split <;> rfl
@[simp] theorem armFreeze_wcur : (armFreeze s).wcur = s.wcur := by unfold armFreeze; split <;> rfl
@[simp] theorem armFreeze_spg : (armFreeze s).spg = s.spg := by unfold armFreeze; split <;> rfl
@[simp] theorem armFreeze_grainAct : (armFreeze s).grainAct = s.grainAct := by unfold armFreeze; split <;> rfl
@[simp] theorem armFreeze_freezeAct : (armFreeze s).freezeAct = s.freezeAct := by unfold armFreeze; split <;> rfl
@[simp] theorem armFreeze_endAddr : (armFreeze s).endAddr = s.endAddr := by unfold armFreeze; split <;> rfl
@[simp] theorem armFreeze_recorded : (armFreeze s).recorded = s.recorded := by unfold armFreeze; split <;> rfl
@[simp] theorem armFreeze_inSample : (armFreeze s).inSample = s.inSample := by unfold armFreeze; split <;> rfl
@[simp] theorem armFreeze_rbuf : (armFreeze s).rbuf = s.rbuf := by unfold armFreeze; split <;> rfl
@[simp] theorem armFreeze_d0 : (armFreeze s).d0 = s.d0 := by unfold armFreeze; split <;> rfl
@[simp] theorem armFreeze_d1 : (armFreeze s).d1 = s.d1 := by unfold armFreeze; split <;> rfl
@[simp] theorem armFreeze_mix : (armFreeze s).mix = s.mix := by unfold armFreeze; split <;> rfl
@[simp] theorem armFreeze_outSample : (armFreeze s).outSample = s.outSample := by unfold armFreeze; split <;> rfl
@[simp] theorem armFreeze_tout : (armFreeze s).tout = s.tout := by unfold armFreeze; split <;> rfl
@[simp] theorem armFreeze_lpBuf0 : (armFreeze s).lpBuf0 = s.lpBuf0 := by unfold armFreeze; split <;> rfl
@[simp] theorem armFreeze_lpBuf1 : (armFreeze s).lpBuf1 = s.lpBuf1 := by unfold armFreeze; split <;> rfl
@[simp] theorem armFreeze_hpBuf0 : (armFreeze s).hpBuf0 = s.hpBuf0 := by unfold armFreeze; split <;> rfl
@[simp] theorem armFreeze_hpBuf1 : (armFreeze s).hpBuf1 = s.hpBuf1 := by unfold armFreeze; split <;> rfl
@[simp] theorem armFreeze_cutLp : (armFreeze s).cutLp = s.cutLp := by unfold armFreeze; split <;> rfl
@[simp] theorem armFreeze_fbLp : (armFreeze s).fbLp = s.fbLp := by unfold armFreeze; split <;> rfl
@[simp] theorem armFreeze_cutHp : (armFreeze s).cutHp = s.cutHp := by unfold armFreeze; split <;> rfl
@[simp] theorem armFreeze_fbHp : (armFreeze s).fbHp = s.fbHp := by unfold armFreeze; split <;> rfl
@[simp] theorem armFreeze_rate : (armFreeze s).rate = s.rate := by unfold armFreeze; split <;> rfl
@[simp] theorem armFreeze_bitres : (armFreeze s).bitres = s.bitres := by unfold armFreeze; split <;> rfl
@[simp] theorem armFreeze_grainSize : (armFreeze s).grainSize = s.grainSize := by unfold armFreeze; split <;> rfl
@[simp] theorem armFreeze_stretch : (armFreeze s).stretch = s.stretch := by unfold armFreeze; split <;> rfl
@[simp] theorem armFreeze_gest : (armFreeze s).gest = s.gest := by unfold armFreeze; split <;> rfl
@[simp] theorem armFreeze_msNow : (armFreeze s).msNow = s.msNow := by unfold armFreeze; split <;> rfl
@[simp] theorem armFreeze_tRecStart : (armFreeze s).tRecStart = s.tRecStart := by unfold armFreeze; split <;> rfl
@[simp] theorem armFreeze_tRecEnd : (armFreeze s).tRecEnd = s.tRecEnd := by unfold armFreeze; split <;> rfl
@[simp] theorem armFreeze_recRate : (armFreeze s).recRate = s.recRate := by unfold armFreeze; split <;> rfl
@[simp] theorem armFreeze_tickRate : (armFreeze s).tickRate = s.tickRate := by unfold armFreeze; split <;> rfl
@[simp] theorem armFreeze_tickEn : (armFreeze s).tickEn = s.tickEn := by unfold armFreeze; split <;> rfl
@[simp] theorem armFreeze_ovr : (armFreeze s).ovr = s.ovr := by unfold armFreeze; split <;> rfl
@[simp] theorem armFreeze_tickPend : (armFreeze s).tickPend = s.tickPend := by unfold armFreeze; split <;> rfl
@[simp] theorem armFreeze_storeA : (armFreeze s).storeA = s.storeA := by unfold armFreeze; split <;> rfl
@[simp] theorem armFreeze_storeB : (armFreeze s).storeB = s.storeB := by unfold armFreeze; split <;> rfl
@[simp] theorem armFreeze_nv : (armFreeze s).nv = s.nv := by unfold armFreeze; split <;> rfl
@[simp] theorem armFreeze_ain : (armFreeze s).ain = s.ain := by unfold armFreeze; split <;> rfl
@[simp] theorem armFreeze_freeSpace : (armFreeze s).freeSpace = s.freeSpace := by unfold armFreeze; split <;> rfl
@[simp] theorem armFreeze_stim : (armFreeze s).stim = s.stim := by unfold armFreeze; split <;> rfl
@[simp] theorem armFreeze_trace : (armFreeze s).trace = s.trace := by unfold armFreeze; split <;> rfl

/-! ### updateModifiers -/

@[simp] theorem updateModifiers_mode : (updateModifiers s).mode = s.mode := by simp [updateModifiers]
@[simp] theorem updateModifiers_phase : (updateModifiers s).phase = s.phase := by simp [updateModifiers]
@[simp] theorem updateModifiers_dir : (updateModifiers s).dir = s.dir := by simp [updateModifiers]
@[simp] theorem updateModifiers_slot : (updateModifiers s).slot = s.slot := by simp [updateModifiers]
@[simp] theorem updateModifiers_pcur : (updateModifiers s).pcur = s.pcur := by simp [updateModifiers]
@[simp] theorem updateModifiers_wcur : (updateModifiers s).wcur = s.wcur := by simp [updateModifiers]
@[simp] theorem updateModifiers_spg : (updateModifiers s).spg = s.spg := by simp [updateModifiers]
@[simp] theorem updateModifiers_grainAct : (updateModifiers s).grainAct = (decide (s.mode = .playback) && gestGrain s.gest) := by simp [updateModifiers]
@[simp] theorem updateModifiers_freezeAct : (updateModifiers s).freezeAct = freezeWanted s := by simp [updateModifiers]
@[simp] theorem updateModifiers_endAddr : (updateModifiers s).endAddr = s.endAddr := by simp [updateModifiers]
@[simp] theorem updateModifiers_recorded : (updateModifiers s).recorded = s.recorded := by simp [updateModifiers]
@[simp] theorem updateModifiers_inSample : (updateModifiers s).inSample = s.inSample := by simp [updateModifiers]
@[simp] theorem updateModifiers_rbuf : (updateModifiers s).rbuf = s.rbuf := by simp [updateModifiers]
@[simp] theorem updateModifiers_d0 : (updateModifiers s).d0 = s.d0 := by simp [updateModifiers]
@[simp] theorem updateModifiers_d1 : (updateModifiers s).d1 = s.d1 := by simp [updateModifiers]
@[simp] theorem updateModifiers_mix : (updateModifiers s).mix = s.mix := by simp [updateModifiers]
@[simp] theorem updateModifiers_outSample : (updateModifiers s).outSample = s.outSample := by simp [updateModifiers]
@[simp] theorem updateModifiers_tout : (updateModifiers s).tout = s.tout := by simp [updateModifiers]
@[simp] theorem updateModifiers_lpBuf0 : (updateModifiers s).lpBuf0 = s.lpBuf0 := by simp [updateModifiers]
@[simp] theorem updateModifiers_lpBuf1 : (updateModifiers s).lpBuf1 = s.lpBuf1 := by simp [updateModifiers]
@[simp] theorem updateModifiers_hpBuf0 : (updateModifiers s).hpBuf0 = s.hpBuf0 := by simp [updateModifiers]
@[simp] theorem updateModifiers_hpBuf1 : (updateModifiers s).hpBuf1 = s.hpBuf1 := by simp [updateModifiers]
@[simp] theorem updateModifiers_cutLp : (updateModifiers s).cutLp = s.cutLp := by simp [updateModifiers]
@[simp] theorem updateModifiers_fbLp : (updateModifiers s).fbLp = s.fbLp := by simp [updateModifiers]
@[simp] theorem updateModifiers_cutHp : (updateModifiers s).cutHp = s.cutHp := by simp [updateModifiers]
@[simp] theorem updateModifiers_fbHp : (updateModifiers s).fbHp = s.fbHp := by simp [updateModifiers]
@[simp] theorem updateModifiers_rate : (updateModifiers s).rate = s.rate := by simp [updateModifiers]
@[simp] theorem updateModifiers_bitres : (updateModifiers s).bitres = s.bitres := by simp [updateModifiers]
@[simp] theorem updateModifiers_grainSize : (updateModifiers s).grainSize = s.grainSize := by simp [updateModifiers]
@[simp] theorem updateModifiers_stretch : (updateModifiers s).stretch = s.stretch := by simp [updateModifiers]
@[simp] theorem updateModifiers_gest : (updateModifiers s).gest = s.gest := by simp [updateModifiers]
@[simp] theorem updateModifiers_msNow : (updateModifiers s).msNow = s.msNow := by simp [updateModifiers]
@[simp] theorem updateModifiers_tRecStart : (updateModifiers s).tRecStart = s.tRecStart := by simp [updateModifiers]
@[simp] theorem updateModifiers_tRecEnd : (updateModifiers s).tRecEnd = s.tRecEnd := by simp [updateModifiers]
@[simp] theorem updateModifiers_recRate : (updateModifiers s).recRate = s.recRate := by simp [updateModifiers]
@[simp] theorem updateModifiers_tickRate : (updateModifiers s).tickRate = s.tickRate := by simp [updateModifiers]
@[simp] theorem updateModifiers_tickEn : (updateModifiers s).tickEn = s.tickEn := by simp [updateModifiers]
@[simp] theorem updateModifiers_ovr : (updateModifiers s).ovr = s.ovr := by simp [updateModifiers]
@[simp] theorem updateModifiers_tickPend : (updateModifiers s).tickPend = s.tickPend := by simp [updateModifiers]
@[simp] theorem updateModifiers_storeA : (updateModifiers s).storeA = s.storeA := by simp [updateModifiers]
@[simp] theorem updateModifiers_storeB : (updateModifiers s).storeB = s.storeB := by simp [updateModifiers]
@[simp] theorem updateModifiers_nv : (updateModifiers s).nv = s.nv := by simp [updateModifiers]
@[simp] theorem updateModifiers_ain : (updateModifiers s).ain = s.ain := by simp [updateModifiers]
@[simp] theorem updateModifiers_freeSpace : (updateModifiers s).freeSpace = s.freeSpace := by simp [updateModifiers]
@[simp] theorem updateModifiers_stim : (updateModifiers s).stim = s.stim := by simp [updateModifiers]
@[simp] theorem updateModifiers_trace : (updateModifiers s).trace = s.trace := by simp [updateModifiers]

/-! ### updateRate -/

@[simp] theorem updateRate_mode : (updateRate s).mode = s.mode := by unfold updateRate; split <;> rfl
@[simp] theorem updateRate_phase : (updateRate s).phase = s.phase := by unfold updateRate; split <;> rfl
@[simp] theorem updateRate_dir : (updateRate s).dir = s.dir := by unfold updateRate; split <;> rfl
@[simp] theorem updateRate_slot : (updateRate s).slot = s.slot := by unfold updateRate; split <;> rfl
@[simp] theorem updateRate_pcur : (updateRate s).pcur = s.pcur := by unfold updateRate; split <;> rfl
@[simp] theorem updateRate_wcur : (updateRate s).wcur = s.wcur := by unfold updateRate; split <;> rfl
@[simp] theorem updateRate_gaddr : (updateRate s).gaddr = s.gaddr := by unfold updateRate; split <;> rfl
@[simp] theorem updateRate_gcnt : (updateRate s).gcnt = s.gcnt := by unfold updateRate; split <;> rfl
@[simp] theorem updateRate_spg : (updateRate s).spg = s.spg := by unfold updateRate; split <;> rfl
@[simp] theorem updateRate_grainAct : (updateRate s).grainAct = s.grainAct := by unfold updateRate; split <;> rfl
@[simp] theorem updateRate_freezeAct : (updateRate s).freezeAct = s.freezeAct := by unfold updateRate; split <;> rfl
@[simp] theorem updateRate_anchor : (updateRate s).anchor = s.anchor := by unfold updateRate; split <;> rfl
@[simp] theorem updateRate_endAddr : (updateRate s).endAddr = s.endAddr := by unfold updateRate; split <;> rfl
@[simp] theorem updateRate_recorded : (updateRate s).recorded = s.recorded := by unfold updateRate; split <;> rfl
@[simp] theorem updateRate_inSample : (updateRate s).inSample = s.inSample := by unfold updateRate; split <;> rfl
@[simp] theorem updateRate_rbuf : (updateRate s).rbuf = s.rbuf := by unfold updateRate; split <;> rfl
@[simp] theorem updateRate_d0 : (updateRate s).d0 = s.d0 := by unfold updateRate; split <;> rfl
@[simp] theorem updateRate_d1 : (updateRate s).d1 = s.d1 := by unfold updateRate; split <;> rfl
@[simp] theorem updateRate_mix : (updateRate s).mix = s.mix := by unfold updateRate; split <;> rfl
@[simp] theorem updateRate_outSample : (updateRate s).outSample = s.outSample := by unfold updateRate; split <;> rfl
@[simp] theorem updateRate_tout : (updateRate s).tout = s.tout := by unfold updateRate; split <;> rfl
@[simp] theorem updateRate_lpBuf0 : (updateRate s).lpBuf0 = s.lpBuf0 := by unfold updateRate; split <;> rfl
@[simp] theorem updateRate_lpBuf1 : (updateRate s).lpBuf1 = s.lpBuf1 := by unfold updateRate; split <;> rfl
@[simp] theorem updateRate_hpBuf0 : (updateRate s).hpBuf0 = s.hpBuf0 := by unfold updateRate; split <;> rfl
@[simp] theorem updateRate_hpBuf1 : (updateRate s).hpBuf1 = s.hpBuf1 := by unfold updateRate; split <;> rfl
@[simp] theorem updateRate_cutLp : (updateRate s).cutLp = s.cutLp := by unfold updateRate; split <;> rfl
@[simp] theorem updateRate_fbLp : (updateRate s).fbLp = s.fbLp := by unfold updateRate; split <;> rfl
@[simp] theorem updateRate_cutHp : (updateRate s).cutHp = s.cutHp := by unfold updateRate; split <;> rfl
@[simp] theorem updateRate_fbHp : (updateRate s).fbHp = s.fbHp := by unfold updateRate; split <;> rfl
@[simp] theorem updateRate_rate : (updateRate s).rate = s.rate := by unfold updateRate; split <;> rfl
@[simp] theorem updateRate_bitres : (updateRate s).bitres = s.bitres := by unfold updateRate; split <;> rfl
@[simp] theorem updateRate_grainSize : (updateRate s).grainSize = s.grainSize := by unfold updateRate; split <;> rfl
@[simp] theorem updateRate_stretch : (updateRate s).stretch = s.stretch := by unfold updateRate; split <;> rfl
@[simp] theorem updateRate_gest : (updateRate s).gest = s.gest := by unfold updateRate; split <;> rfl
@[simp] theorem updateRate_msNow : (updateRate s).msNow = s.msNow := by unfold updateRate; split <;> rfl
@[simp] theorem updateRate_tRecStart : (updateRate s).tRecStart = s.tRecStart := by unfold updateRate; split <;> rfl
@[simp] theorem updateRate_tRecEnd : (updateRate s).tRecEnd = s.tRecEnd := by unfold updateRate; split <;> rfl
@[simp] theorem updateRate_recRate : (updateRate s).recRate = s.recRate := by unfold updateRate; split <;> rfl
@[simp] theorem updateRate_tickEn : (updateRate s).tickEn = s.tickEn := by unfold updateRate; split <;> rfl
@[simp] theorem updateRate_ovr : (updateRate s).ovr = s.ovr := by unfold updateRate; split <;> rfl
@[simp] theorem updateRate_tickPend : (updateRate s).tickPend = s.tickPend := by unfold updateRate; split <;> rfl
@[simp] theorem updateRate_storeA : (updateRate s).storeA = s.storeA := by unfold updateRate; split <;> rfl
@[simp] theorem updateRate_storeB : (updateRate s).storeB = s.storeB := by unfold updateRate; split <;> rfl
@[simp] theorem updateRate_nv : (updateRate s).nv = s.nv := by unfold updateRate; split <;> rfl
@[simp] theorem updateRate_ain : (updateRate s).ain = s.ain := by unfold updateRate; split <;> rfl
@[simp] theorem updateRate_freeSpace : (updateRate s).freeSpace = s.freeSpace := by unfold updateRate; split <;> rfl
@[simp] theorem updateRate_stim : (updateRate s).stim = s.stim := by unfold updateRate; split <;> rfl
@[simp] theorem updateRate_trace : (updateRate s).trace = s.trace := by unfold updateRate; split <;> rfl

/-! ### clearRegisters -/

@[simp] theorem clearRegisters_mode : (clearRegisters s).mode = State.reset.mode := rfl
@[simp] theorem clearRegisters_phase : (clearRegisters s).phase = State.reset.phase := rfl
@[simp] theorem clearRegisters_dir : (clearRegisters s).dir = State.reset.dir := rfl
@[simp] theorem clearRegisters_slot : (clearRegisters s).slot = State.reset.slot := rfl
@[simp] theorem clearRegisters_pcur : (clearRegisters s).pcur = State.reset.pcur := rfl
@[simp] theorem clearRegisters_wcur : (clearRegisters s).wcur = State.reset.wcur := rfl
@[simp] theorem clearRegisters_gaddr : (clearRegisters s).gaddr = State.reset.gaddr := rfl
@[simp] theorem clearRegisters_gcnt : (clearRegisters s).gcnt = State.reset.gcnt := rfl
@[simp] theorem clearRegisters_spg : (clearRegisters s).spg = State.reset.spg := rfl
@[simp] theorem clearRegisters_grainAct : (clearRegisters s).grainAct = State.reset.grainAct := rfl
@[simp] theorem clearRegisters_freezeAct : (clearRegisters s).freezeAct = State.reset.freezeAct := rfl
@[simp] theorem clearRegisters_anchor : (clearRegisters s).anchor = State.reset.anchor := rfl
@[simp] theorem clearRegisters_endAddr : (clearRegisters s).endAddr = State.reset.endAddr := rfl
@[simp] theorem clearRegisters_recorded : (clearRegisters s).recorded = State.reset.recorded := rfl
@[simp] theorem clearRegisters_inSample : (clearRegisters s).inSample = State.reset.inSample := rfl
@[simp] theorem clearRegisters_rbuf : (clearRegisters s).rbuf = State.reset.rbuf := rfl
@[simp] theorem clearRegisters_d0 : (clearRegisters s).d0 = State.reset.d0 := rfl
@[simp] theorem clearRegisters_d1 : (clearRegisters s).d1 = State.reset.d1 := rfl
@[simp] theorem clearRegisters_mix : (clearRegisters s).mix = State.reset.mix := rfl
@[simp] theorem clearRegisters_outSample : (clearRegisters s).outSample = State.reset.outSample := rfl
@[simp] theorem clearRegisters_tout : (clearRegisters s).tout = State.reset.tout := rfl
@[simp] theorem clearRegisters_lpBuf0 : (clearRegisters s).lpBuf0 = State.reset.lpBuf0 := rfl
@[simp] theorem clearRegisters_lpBuf1 : (clearRegisters s).lpBuf1 = State.reset.lpBuf1 := rfl
@[simp] theorem clearRegisters_hpBuf0 : (clearRegisters s).hpBuf0 = State.reset.hpBuf0 := rfl
@[simp] theorem clearRegisters_hpBuf1 : (clearRegisters s).hpBuf1 = State.reset.hpBuf1 := rfl
@[simp] theorem clearRegisters_cutLp : (clearRegisters s).cutLp = State.reset.cutLp := rfl
@[simp] theorem clearRegisters_fbLp : (clearRegisters s).fbLp = State.reset.fbLp := rfl
@[simp] theorem clearRegisters_cutHp : (clearRegisters s).cutHp = State.reset.cutHp := rfl
@[simp] theorem clearRegisters_fbHp : (clearRegisters s).fbHp = State.reset.fbHp := rfl
@[simp] theorem clearRegisters_rate : (clearRegisters s).rate = State.reset.rate := rfl
@[simp] theorem clearRegisters_bitres : (clearRegisters s).bitres = State.reset.bitres := rfl
@[simp] theorem clearRegisters_grainSize : (clearRegisters s).grainSize = State.reset.grainSize := rfl
@[simp] theorem clearRegisters_stretch : (clearRegisters s).stretch = State.reset.stretch := rfl
@[simp] theorem clearRegisters_gest : (clearRegisters s).gest = State.reset.gest := rfl
@[simp] theorem clearRegisters_msNow : (clearRegisters s).msNow = State.reset.msNow := rfl
@[simp] theorem clearRegisters_tRecStart : (clearRegisters s).tRecStart = State.reset.tRecStart := rfl
@[simp] theorem clearRegisters_tRecEnd : (clearRegisters s).tRecEnd = State.reset.tRecEnd := rfl
@[simp] theorem clearRegisters_recRate : (clearRegisters s).recRate = State.reset.recRate := rfl
@[simp] theorem clearRegisters_tickRate : (clearRegisters s).tickRate = State.reset.tickRate := rfl
@[simp] theorem clearRegisters_tickEn : (clearRegisters s).tickEn = State.reset.tickEn := rfl
@[simp] theorem clearRegisters_ovr : (clearRegisters s).ovr = State.reset.ovr := rfl
@[simp] theorem clearRegisters_tickPend : (clearRegisters s).tickPend = State.reset.tickPend := rfl
@[simp] theorem clearRegisters_storeA : (clearRegisters s).storeA = s.storeA := rfl
@[simp] theorem clearRegisters_storeB : (clearRegisters s).storeB = s.storeB := rfl
@[simp] theorem clearRegisters_nv : (clearRegisters s).nv = s.nv := rfl
@[simp] theorem clearRegisters_ain : (clearRegisters s).ain = s.ain := rfl
@[simp] theorem clearRegisters_freeSpace : (clearRegisters s).freeSpace = s.freeSpace := rfl
@[simp] theorem clearRegisters_stim : (clearRegisters s).stim = s.stim := rfl
@[simp] theorem clearRegisters_trace : (clearRegisters s).trace = s.trace := rfl

/-! ### loadBoundary -/

@[simp] theorem loadBoundary_mode (k : SlotId) : (loadBoundary k s).mode = s.mode := by simp [loadBoundary]
@[simp] theorem loadBoundary_phase (k : SlotId) : (loadBoundary k s).phase = s.phase := by simp [loadBoundary]
@[simp] theorem loadBoundary_dir (k : SlotId) : (loadBoundary k s).dir = s.dir := by simp [loadBoundary]
@[simp] theorem loadBoundary_slot (k : SlotId) : (loadBoundary k s).slot = s.slot := by simp [loadBoundary]
@[simp] theorem loadBoundary_pcur (k : SlotId) : (loadBoundary k s).pcur = s.pcur := by simp [loadBoundary]
@[simp] theorem loadBoundary_wcur (k : SlotId) : (loadBoundary k s).wcur = s.wcur := by simp [loadBoundary]
@[simp] theorem loadBoundary_gaddr (k : SlotId) : (loadBoundary k s).gaddr = s.gaddr := by simp [loadBoundary]
@[simp] theorem loadBoundary_gcnt (k : SlotId) : (loadBoundary k s).gcnt = s.gcnt := by simp [loadBoundary]
@[simp] theorem loadBoundary_spg (k : SlotId) : (loadBoundary k s).spg = s.spg := by simp [loadBoundary]
@[simp] theorem loadBoundary_grainAct (k : SlotId) : (loadBoundary k s).grainAct = s.grainAct := by simp [loadBoundary]
@[simp] theorem loadBoundary_freezeAct (k : SlotId) : (loadBoundary k s).freezeAct = s.freezeAct := by simp [loadBoundary]
@[simp] theorem loadBoundary_anchor (k : SlotId) : (loadBoundary k s).anchor = s.anchor := by simp [loadBoundary]
@[simp] theorem loadBoundary_endAddr (k : SlotId) : (loadBoundary k s).endAddr = slotSet s.endAddr k (storedEnd s k) := by simp [loadBoundary]
@[simp] theorem loadBoundary_recorded (k : SlotId) : (loadBoundary k s).recorded = slotSet s.recorded k (!(storedEnd s k == 0#24)) := by simp [loadBoundary]
@[simp] theorem loadBoundary_inSample (k : SlotId) : (loadBoundary k s).inSample = s.inSample := by simp [loadBoundary]
@[simp] theorem loadBoundary_rbuf (k : SlotId) : (loadBoundary k s).rbuf = s.rbuf := by simp [loadBoundary]
@[simp] theorem loadBoundary_d0 (k : SlotId) : (loadBoundary k s).d0 = s.d0 := by simp [loadBoundary]
@[simp] theorem loadBoundary_d1 (k : SlotId) : (loadBoundary k s).d1 = s.d1 := by simp [loadBoundary]
@[simp] theorem loadBoundary_mix (k : SlotId) : (loadBoundary k s).mix = s.mix := by simp [loadBoundary]
@[simp] theorem loadBoundary_outSample (k : SlotId) : (loadBoundary k s).outSample = s.outSample := by simp [loadBoundary]
@[simp] theorem loadBoundary_tout (k : SlotId) : (loadBoundary k s).tout = s.tout := by simp [loadBoundary]
@[simp] theorem loadBoundary_lpBuf0 (k : SlotId) : (loadBoundary k s).lpBuf0 = s.lpBuf0 := by simp [loadBoundary]
@[simp] theorem loadBoundary_lpBuf1 (k : SlotId) : (loadBoundary k s).lpBuf1 = s.lpBuf1 := by simp [loadBoundary]
@[simp] theorem loadBoundary_hpBuf0 (k : SlotId) : (loadBoundary k s).hpBuf0 = s.hpBuf0 := by simp [loadBoundary]
@[simp] theorem loadBoundary_hpBuf1 (k : SlotId) : (loadBoundary k s).hpBuf1 = s.hpBuf1 := by simp [loadBoundary]
@[simp] theorem loadBoundary_cutLp (k : SlotId) : (loadBoundary k s).cutLp = s.cutLp := by simp [loadBoundary]
@[simp] theorem loadBoundary_fbLp (k : SlotId) : (loadBoundary k s).fbLp = s.fbLp := by simp [loadBoundary]
@[simp] theorem loadBoundary_cutHp (k : SlotId) : (loadBoundary k s).cutHp = s.cutHp := by simp [loadBoundary]
@[simp] theorem loadBoundary_fbHp (k : SlotId) : (loadBoundary k s).fbHp = s.fbHp := by simp [loadBoundary]
@[simp] theorem loadBoundary_rate (k : SlotId) : (loadBoundary k s).rate = s.rate := by simp [loadBoundary]
@[simp] theorem loadBoundary_bitres (k : SlotId) : (loadBoundary k s).bitres = s.bitres := by simp [loadBoundary]
@[simp] theorem loadBoundary_grainSize (k : SlotId) : (loadBoundary k s).grainSize = s.grainSize := by simp [loadBoundary]
@[simp] theorem loadBoundary_stretch (k : SlotId) : (loadBoundary k s).stretch = s.stretch := by simp [loadBoundary]
@[simp] theorem loadBoundary_gest (k : SlotId) : (loadBoundary k s).gest = s.gest := by simp [loadBoundary]
@[simp] theorem loadBoundary_msNow (k : SlotId) : (loadBoundary k s).msNow = s.msNow := by simp [loadBoundary]
@[simp] theorem loadBoundary_tRecStart (k : SlotId) : (loadBoundary k s).tRecStart = s.tRecStart := by simp [loadBoundary]
@[simp] theorem loadBoundary_tRecEnd (k : SlotId) : (loadBoundary k s).tRecEnd = s.tRecEnd := by simp [loadBoundary]
@[simp] theorem loadBoundary_recRate (k : SlotId) : (loadBoundary k s).recRate = s.recRate := by simp [loadBoundary]
@[simp] theorem loadBoundary_tickRate (k : SlotId) : (loadBoundary k s).tickRate = s.tickRate := by simp [loadBoundary]
@[simp] theorem loadBoundary_tickEn (k : SlotId) : (loadBoundary k s).tickEn = s.tickEn := by simp [loadBoundary]
@[simp] theorem loadBoundary_ovr (k : SlotId) : (loadBoundary k s).ovr = s.ovr := by simp [loadBoundary]
@[simp] theorem loadBoundary_tickPend (k : SlotId) : (loadBoundary k s).tickPend = s.tickPend := by simp [loadBoundary]
@[simp] theorem loadBoundary_storeA (k : SlotId) : (loadBoundary k s).storeA = s.storeA := by simp [loadBoundary]
@[simp] theorem loadBoundary_storeB (k : SlotId) : (loadBoundary k s).storeB = s.storeB := by simp [loadBoundary]
@[simp] theorem loadBoundary_nv (k : SlotId) : (loadBoundary k s).nv = s.nv := by simp [loadBoundary]
@[simp] theorem loadBoundary_ain (k : SlotId) : (loadBoundary k s).ain = s.ain := by simp [loadBoundary]
@[simp] theorem loadBoundary_freeSpace (k : SlotId) : (loadBoundary k s).freeSpace = s.freeSpace := by simp [loadBoundary]
@[simp] theorem loadBoundary_stim (k : SlotId) : (loadBoundary k s).stim = s.stim := by simp [loadBoundary]

/-! ### pushStim -/

@[simp] theorem pushStim_mode (w : StimWord) : (pushStim w s).mode = s.mode := rfl
@[simp] theorem pushStim_phase (w : StimWord) : (pushStim w s).phase = s.phase := rfl
@[simp] theorem pushStim_dir (w : StimWord) : (pushStim w s).dir = s.dir := rfl
@[simp] theorem pushStim_slot (w : StimWord) : (pushStim w s).slot = s.slot := rfl
@[simp] theorem pushStim_pcur (w : StimWord) : (pushStim w s).pcur = s.pcur := rfl
@[simp] theorem pushStim_wcur (w : StimWord) : (pushStim w s).wcur = s.wcur := rfl
@[simp] theorem pushStim_gaddr (w : StimWord) : (pushStim w s).gaddr = s.gaddr := rfl
@[simp] theorem pushStim_gcnt (w : StimWord) : (pushStim w s).gcnt = s.gcnt := rfl
@[simp] theorem pushStim_spg (w : StimWord) : (pushStim w s).spg = s.spg := rfl
@[simp] theorem pushStim_grainAct (w : StimWord) : (pushStim w s).grainAct = s.grainAct := rfl
@[simp] theorem pushStim_freezeAct (w : StimWord) : (pushStim w s).freezeAct = s.freezeAct := rfl
@[simp] theorem pushStim_anchor (w : StimWord) : (pushStim w s).anchor = s.anchor := rfl
@[simp] theorem pushStim_endAddr (w : StimWord) : (pushStim w s).endAddr = s.endAddr := rfl
@[simp] theorem pushStim_recorded (w : StimWord) : (pushStim w s).recorded = s.recorded := rfl
@[simp] theorem pushStim_inSample (w : StimWord) : (pushStim w s).inSample = s.inSample := rfl
@[simp] theorem pushStim_rbuf (w : StimWord) : (pushStim w s).rbuf = s.rbuf := rfl
@[simp] theorem pushStim_d0 (w : StimWord) : (pushStim w s).d0 = s.d0 := rfl
@[simp] theorem pushStim_d1 (w : StimWord) : (pushStim w s).d1 = s.d1 := rfl
@[simp] theorem pushStim_mix (w : StimWord) : (pushStim w s).mix = s.mix := rfl
@[simp] theorem pushStim_outSample (w : StimWord) : (pushStim w s).outSample = s.outSample := rfl
@[simp] theorem pushStim_tout (w : StimWord) : (pushStim w s).tout = s.tout := rfl
@[simp] theorem pushStim_lpBuf0 (w : StimWord) : (pushStim w s).lpBuf0 = s.lpBuf0 := rfl
@[simp] theorem pushStim_lpBuf1 (w : StimWord) : (pushStim w s).lpBuf1 = s.lpBuf1 := rfl
@[simp] theorem pushStim_hpBuf0 (w : StimWord) : (pushStim w s).hpBuf0 = s.hpBuf0 := rfl
@[simp] theorem pushStim_hpBuf1 (w : StimWord) : (pushStim w s).hpBuf1 = s.hpBuf1 := rfl
@[simp] theorem pushStim_cutLp (w : StimWord) : (pushStim w s).cutLp = s.cutLp := rfl
@[simp] theorem pushStim_fbLp (w : StimWord) : (pushStim w s).fbLp = s.fbLp := rfl
@[simp] theorem pushStim_cutHp (w : StimWord) : (pushStim w s).cutHp = s.cutHp := rfl
@[simp] theorem pushStim_fbHp (w : StimWord) : (pushStim w s).fbHp = s.fbHp := rfl
@[simp] theorem pushStim_rate (w : StimWord) : (pushStim w s).rate = s.rate := rfl
@[simp] theorem pushStim_bitres (w : StimWord) : (pushStim w s).bitres = s.bitres := rfl
@[simp] theorem pushStim_grainSize (w : StimWord) : (pushStim w s).grainSize = s.grainSize := rfl
@[simp] theorem pushStim_stretch (w : StimWord) : (pushStim w s).stretch = s.stretch := rfl
@[simp] theorem pushStim_gest (w : StimWord) : (pushStim w s).gest = s.gest := rfl
@[simp] theorem pushStim_msNow (w : StimWord) : (pushStim w s).msNow = s.msNow := rfl
@[simp] theorem pushStim_tRecStart (w : StimWord) : (pushStim w s).tRecStart = s.tRecStart := rfl
@[simp] theorem pushStim_tRecEnd (w : StimWord) : (pushStim w s).tRecEnd = s.tRecEnd := rfl
@[simp] theorem pushStim_recRate (w : StimWord) : (pushStim w s).recRate = s.recRate := rfl
@[simp] theorem pushStim_tickRate (w : StimWord) : (pushStim w s).tickRate = s.tickRate := rfl
@[simp] theorem pushStim_tickEn (w : StimWord) : (pushStim w s).tickEn = s.tickEn := rfl
@[simp] theorem pushStim_ovr (w : StimWord) : (pushStim w s).ovr = s.ovr := rfl
@[simp] theorem pushStim_tickPend (w : StimWord) : (pushStim w s).tickPend = s.tickPend := rfl
@[simp] theorem pushStim_storeA (w : StimWord) : (pushStim w s).storeA = s.storeA := rfl
@[simp] theorem pushStim_storeB (w : StimWord) : (pushStim w s).storeB = s.storeB := rfl
@[simp] theorem pushStim_nv (w : StimWord) : (pushStim w s).nv = s.nv := rfl
@[simp] theorem pushStim_ain (w : StimWord) : (pushStim w s).ain = s.ain := rfl
@[simp] theorem pushStim_freeSpace (w : StimWord) : (pushStim w s).freeSpace = s.freeSpace := rfl
@[simp] theorem pushStim_stim (w : StimWord) : (pushStim w s).stim = w :: s.stim := rfl
@[simp] theorem pushStim_trace (w : StimWord) : (pushStim w s).trace = s.trace := rfl

/-! ### passInput -/

@[simp] theorem passInput_mode : (passInput s).mode = s.mode := by simp [passInput]
@[simp] theorem passInput_phase : (passInput s).phase = s.phase := by simp [passInput]
@[simp] theorem passInput_dir : (passInput s).dir = s.dir := by simp [passInput]
@[simp] theorem passInput_slot : (passInput s).slot = s.slot := by simp [passInput]
@[simp] theorem passInput_pcur : (passInput s).pcur = s.pcur := by simp [passInput]
@[simp] theorem passInput_wcur : (passInput s).wcur = s.wcur := by simp [passInput]
@[simp] theorem passInput_gaddr : (passInput s).gaddr = s.gaddr := by simp [passInput]
@[simp] theorem passInput_gcnt : (passInput s).gcnt = s.gcnt := by simp [passInput]
@[simp] theorem passInput_spg : (passInput s).spg = s.spg := by simp [passInput]
@[simp] theorem passInput_grainAct : (passInput s).grainAct = s.grainAct := by simp [passInput]
@[simp] theorem passInput_freezeAct : (passInput s).freezeAct = s.freezeAct := by simp [passInput]
@[simp] theorem passInput_anchor : (passInput s).anchor = s.anchor := by simp [passInput]
@[simp] theorem passInput_endAddr : (passInput s).endAddr = s.endAddr := by simp [passInput]
@[simp] theorem passInput_recorded : (passInput s).recorded = s.recorded := by simp [passInput]
@[simp] theorem passInput_inSample : (passInput s).inSample = s.ain := by simp [passInput]
@[simp] theorem passInput_rbuf : (passInput s).rbuf = s.rbuf := by simp [passInput]
@[simp] theorem passInput_d0 : (passInput s).d0 = s.d0 := by simp [passInput]
@[simp] theorem passInput_d1 : (passInput s).d1 = s.d1 := by simp [passInput]
@[simp] theorem passInput_mix : (passInput s).mix = BitVec.ofInt 12 (signal s.ain) := by simp [passInput]
@[simp] theorem passInput_outSample : (passInput s).outSample = s.outSample := by simp [passInput]
@[simp] theorem passInput_tout : (passInput s).tout = .continued := by simp [passInput]
@[simp] theorem passInput_lpBuf0 : (passInput s).lpBuf0 = s.lpBuf0 := by simp [passInput]
@[simp] theorem passInput_lpBuf1 : (passInput s).lpBuf1 = s.lpBuf1 := by simp [passInput]
@[simp] theorem passInput_hpBuf0 : (passInput s).hpBuf0 = s.hpBuf0 := by simp [passInput]
@[simp] theorem passInput_hpBuf1 : (passInput s).hpBuf1 = s.hpBuf1 := by simp [passInput]
@[simp] theorem passInput_cutLp : (passInput s).cutLp = s.cutLp := by simp [passInput]
@[simp] theorem passInput_fbLp : (passInput s).fbLp = s.fbLp := by simp [passInput]
@[simp] theorem passInput_cutHp : (passInput s).cutHp = s.cutHp := by simp [passInput]
@[simp] theorem passInput_fbHp : (passInput s).fbHp = s.fbHp := by simp [passInput]
@[simp] theorem passInput_rate : (passInput s).rate = s.rate := by simp [passInput]
@[simp] theorem passInput_bitres : (passInput s).bitres = s.bitres := by simp [passInput]
@[simp] theorem passInput_grainSize : (passInput s).grainSize = s.grainSize := by simp [passInput]
@[simp] theorem passInput_stretch : (passInput s).stretch = s.stretch := by simp [passInput]
@[simp] theorem passInput_gest : (passInput s).gest = s.gest := by simp [passInput]
@[simp] theorem passInput_msNow : (passInput s).msNow = s.msNow := by simp [passInput]
@[simp] theorem passInput_tRecStart : (passInput s).tRecStart = s.tRecStart := by simp [passInput]
@[simp] theorem passInput_tRecEnd : (passInput s).tRecEnd = s.tRecEnd := by simp [passInput]
@[simp] theorem passInput_recRate : (passInput s).recRate = s.recRate := by simp [passInput]
@[simp] theorem passInput_tickRate : (passInput s).tickRate = s.tickRate := by simp [passInput]
@[simp] theorem passInput_tickEn : (passInput s).tickEn = s.tickEn := by simp [passInput]
@[simp] theorem passInput_ovr : (passInput s).ovr = s.ovr := by simp [passInput]
@[simp] theorem passInput_tickPend : (passInput s).tickPend = s.tickPend := by simp [passInput]
@[simp] theorem passInput_storeA : (passInput s).storeA = s.storeA := by simp [passInput]
@[simp] theorem passInput_storeB : (passInput s).storeB = s.storeB := by simp [passInput]
@[simp] theorem passInput_nv : (passInput s).nv = s.nv := by simp [passInput]
@[simp] theorem passInput_ain : (passInput s).ain = s.ain := by simp [passInput]
@[simp] theorem passInput_freeSpace : (passInput s).freeSpace = s.freeSpace := by simp [passInput]
@[simp] theorem passInput_stim : (passInput s).stim = s.stim := by simp [passInput]
@[simp] theorem passInput_trace : (passInput s).trace = s.trace ++ [.dac s.outSample, .adc s.ain] := by simp [passInput]

/-! ### finishTick -/

@[simp] theorem finishTick_mode : (finishTick s).mode = s.mode := by simp [finishTick]
@[simp] theorem finishTick_phase : (finishTick s).phase = !s.phase := by simp [finishTick]
@[simp] theorem finishTick_dir : (finishTick s).dir = s.dir := by simp [finishTick]
@[simp] theorem finishTick_slot : (finishTick s).slot = s.slot := by simp [finishTick]
@[simp] theorem finishTick_pcur : (finishTick s).pcur = s.pcur := by simp [finishTick]
@[simp] theorem finishTick_wcur : (finishTick s).wcur = s.wcur := by simp [finishTick]
@[simp] theorem finishTick_gaddr : (finishTick s).gaddr = s.gaddr := by simp [finishTick]
@[simp] theorem finishTick_gcnt : (finishTick s).gcnt = s.gcnt := by simp [finishTick]
@[simp] theorem finishTick_spg : (finishTick s).spg = s.spg := by simp [finishTick]
@[simp] theorem finishTick_grainAct : (finishTick s).grainAct = s.grainAct := by simp [finishTick]
@[simp] theorem finishTick_freezeAct : (finishTick s).freezeAct = s.freezeAct := by simp [finishTick]
@[simp] theorem finishTick_anchor : (finishTick s).anchor = s.anchor := by simp [finishTick]
@[simp] theorem finishTick_endAddr : (finishTick s).endAddr = s.endAddr := by simp [finishTick]
@[simp] theorem finishTick_recorded : (finishTick s).recorded = s.recorded := by simp [finishTick]
@[simp] theorem finishTick_inSample : (finishTick s).inSample = s.inSample := by simp [finishTick]
@[simp] theorem finishTick_rbuf : (finishTick s).rbuf = s.rbuf := by simp [finishTick]
@[simp] theorem finishTick_d0 : (finishTick s).d0 = s.d0 := by simp [finishTick]
@[simp] theorem finishTick_d1 : (finishTick s).d1 = s.d1 := by simp [finishTick]
@[simp] theorem finishTick_mix : (finishTick s).mix = s.mix := by simp [finishTick]
@[simp] theorem finishTick_tout : (finishTick s).tout = s.tout := by simp [finishTick]
@[simp] theorem finishTick_cutLp : (finishTick s).cutLp = s.cutLp := by simp [finishTick]
@[simp] theorem finishTick_fbLp : (finishTick s).fbLp = s.fbLp := by simp [finishTick]
@[simp] theorem finishTick_cutHp : (finishTick s).cutHp = s.cutHp := by simp [finishTick]
@[simp] theorem finishTick_fbHp : (finishTick s).fbHp = s.fbHp := by simp [finishTick]
@[simp] theorem finishTick_rate : (finishTick s).rate = s.rate := by simp [finishTick]
@[simp] theorem finishTick_bitres : (finishTick s).bitres = s.bitres := by simp [finishTick]
@[simp] theorem finishTick_grainSize : (finishTick s).grainSize = s.grainSize := by simp [finishTick]
@[simp] theorem finishTick_stretch : (finishTick s).stretch = s.stretch := by simp [finishTick]
@[simp] theorem finishTick_gest : (finishTick s).gest = s.gest := by simp [finishTick]
@[simp] theorem finishTick_msNow : (finishTick s).msNow = s.msNow := by simp [finishTick]
@[simp] theorem finishTick_tRecStart : (finishTick s).tRecStart = s.tRecStart := by simp [finishTick]
@[simp] theorem finishTick_tRecEnd : (finishTick s).tRecEnd = s.tRecEnd := by simp [finishTick]
@[simp] theorem finishTick_recRate : (finishTick s).recRate = s.recRate := by simp [finishTick]
@[simp] theorem finishTick_tickRate : (finishTick s).tickRate = s.tickRate := by simp [finishTick]
@[simp] theorem finishTick_tickEn : (finishTick s).tickEn = s.tickEn := by simp [finishTick]
@[simp] theorem finishTick_ovr : (finishTick s).ovr = s.ovr := by simp [finishTick]
@[simp] theorem finishTick_tickPend : (finishTick s).tickPend = s.tickPend := by simp [finishTick]
@[simp] theorem finishTick_storeA : (finishTick s).storeA = s.storeA := by simp [finishTick]
@[simp] theorem finishTick_storeB : (finishTick s).storeB = s.storeB := by simp [finishTick]
@[simp] theorem finishTick_nv : (finishTick s).nv = s.nv := by simp [finishTick]
@[simp] theorem finishTick_ain : (finishTick s).ain = s.ain := by simp [finishTick]
@[simp] theorem finishTick_freeSpace : (finishTick s).freeSpace = s.freeSpace := by simp [finishTick]
@[simp] theorem finishTick_stim : (finishTick s).stim = s.stim := by simp [finishTick]
@[simp] theorem finishTick_trace : (finishTick s).trace = s.trace := by simp [finishTick]

/-! ### runTransition -/

@[simp] theorem runTransition_phase (tr : Transition) : (runTransition tr s).phase = s.phase := by cases tr <;> simp [runTransition]
@[simp] theorem runTransition_dir (tr : Transition) : (runTransition tr s).dir = s.dir := by cases tr <;> simp [runTransition]
@[simp] theorem runTransition_spg (tr : Transition) : (runTransition tr s).spg = s.spg := by cases tr <;> simp [runTransition]
@[simp] theorem runTransition_grainAct (tr : Transition) : (runTransition tr s).grainAct = s.grainAct := by cases tr <;> simp [runTransition]
@[simp] theorem runTransition_freezeAct (tr : Transition) : (runTransition tr s).freezeAct = s.freezeAct := by cases tr <;> simp [runTransition]
@[simp] theorem runTransition_anchor (tr : Transition) : (runTransition tr s).anchor = s.anchor := by cases tr <;> simp [runTransition]
@[simp] theorem runTransition_inSample (tr : Transition) : (runTransition tr s).inSample = s.inSample := by cases tr <;> simp [runTransition]
@[simp] theorem runTransition_rbuf (tr : Transition) : (runTransition tr s).rbuf = s.rbuf := by cases tr <;> simp [runTransition]
@[simp] theorem runTransition_d0 (tr : Transition) : (runTransition tr s).d0 = s.d0 := by cases tr <;> simp [runTransition]
@[simp] theorem runTransition_d1 (tr : Transition) : (runTransition tr s).d1 = s.d1 := by cases tr <;> simp [runTransition]
@[simp] theorem runTransition_mix (tr : Transition) : (runTransition tr s).mix = s.mix := by cases tr <;> simp [runTransition]
@[simp] theorem runTransition_outSample (tr : Transition) : (runTransition tr s).outSample = s.outSample := by cases tr <;> simp [runTransition]
@[simp] theorem runTransition_tout (tr : Transition) : (runTransition tr s).tout = s.tout := by cases tr <;> simp [runTransition]
@[simp] theorem runTransition_lpBuf0 (tr : Transition) : (runTransition tr s).lpBuf0 = s.lpBuf0 := by cases tr <;> simp [runTransition]
@[simp] theorem runTransition_lpBuf1 (tr : Transition) : (runTransition tr s).lpBuf1 = s.lpBuf1 := by cases tr <;> simp [runTransition]
@[simp] theorem runTransition_hpBuf0 (tr : Transition) : (runTransition tr s).hpBuf0 = s.hpBuf0 := by cases tr <;> simp [runTransition]
@[simp] theorem runTransition_hpBuf1 (tr : Transition) : (runTransition tr s).hpBuf1 = s.hpBuf1 := by cases tr <;> simp [runTransition]
@[simp] theorem runTransition_cutLp (tr : Transition) : (runTransition tr s).cutLp = s.cutLp := by cases tr <;> simp [runTransition]
@[simp] theorem runTransition_fbLp (tr : Transition) : (runTransition tr s).fbLp = s.fbLp := by cases tr <;> simp [runTransition]
@[simp] theorem runTransition_cutHp (tr : Transition) : (runTransition tr s).cutHp = s.cutHp := by cases tr <;> simp [runTransition]
@[simp] theorem runTransition_fbHp (tr : Transition) : (runTransition tr s).fbHp = s.fbHp := by cases tr <;> simp [runTransition]
@[simp] theorem runTransition_rate (tr : Transition) : (runTransition tr s).rate = s.rate := by cases tr <;> simp [runTransition]
@[simp] theorem runTransition_bitres (tr : Transition) : (runTransition tr s).bitres = s.bitres := by cases tr <;> simp [runTransition]
@[simp] theorem runTransition_grainSize (tr : Transition) : (runTransition tr s).grainSize = s.grainSize := by cases tr <;> simp [runTransition]
@[simp] theorem runTransition_stretch (tr : Transition) : (runTransition tr s).stretch = s.stretch := by cases tr <;> simp [runTransition]
@[simp] theorem runTransition_gest (tr : Transition) : (runTransition tr s).gest = s.gest := by cases tr <;> simp [runTransition]
@[simp] theorem runTransition_msNow (tr : Transition) : (runTransition tr s).msNow = s.msNow := by cases tr <;> simp [runTransition]
@[simp] theorem runTransition_tickEn (tr : Transition) : (runTransition tr s).tickEn = s.tickEn := by cases tr <;> simp [runTransition]
@[simp] theorem runTransition_ovr (tr : Transition) : (runTransition tr s).ovr = s.ovr := by cases tr <;> simp [runTransition]
@[simp] theorem runTransition_tickPend (tr : Transition) : (runTransition tr s).tickPend = s.tickPend := by cases tr <;> simp [runTransition]
@[simp] theorem runTransition_storeA (tr : Transition) : (runTransition tr s).storeA = s.storeA := by cases tr <;> simp [runTransition]
@[simp] theorem runTransition_storeB (tr : Transition) : (runTransition tr s).storeB = s.storeB := by cases tr <;> simp [runTransition]
@[simp] theorem runTransition_ain (tr : Transition) : (runTransition tr s).ain = s.ain := by cases tr <;> simp [runTransition]
@[simp] theorem runTransition_freeSpace (tr : Transition) : (runTransition tr s).freeSpace = s.freeSpace := by cases tr <;> simp [runTransition]
@[simp] theorem runTransition_stim (tr : Transition) : (runTransition tr s).stim = s.stim := by cases tr <;> simp [runTransition]

/-! ### stepK3 -/

@[simp] theorem stepK3_phase : (stepK3 s).phase = s.phase := by simp [stepK3]
@[simp] theorem stepK3_dir : (stepK3 s).dir = s.dir := by simp [stepK3]
@[simp] theorem stepK3_spg : (stepK3 s).spg = s.spg := by simp [stepK3]
@[simp] theorem stepK3_grainAct : (stepK3 s).grainAct = s.grainAct := by simp [stepK3]
@[simp] theorem stepK3_freezeAct : (stepK3 s).freezeAct = s.freezeAct := by simp [stepK3]
@[simp] theorem stepK3_anchor : (stepK3 s).anchor = s.anchor := by simp [stepK3]
@[simp] theorem stepK3_inSample : (stepK3 s).inSample = s.inSample := by simp [stepK3]
@[simp] theorem stepK3_rbuf : (stepK3 s).rbuf = s.rbuf := by simp [stepK3]
@[simp] theorem stepK3_d0 : (stepK3 s).d0 = s.d0 := by simp [stepK3]
@[simp] theorem stepK3_d1 : (stepK3 s).d1 = s.d1 := by simp [stepK3]
@[simp] theorem stepK3_mix : (stepK3 s).mix = s.mix := by simp [stepK3]
@[simp] theorem stepK3_outSample : (stepK3 s).outSample = s.outSample := by simp [stepK3]
@[simp] theorem stepK3_tout : (stepK3 s).tout = s.tout := by simp [stepK3]
@[simp] theorem stepK3_lpBuf0 : (stepK3 s).lpBuf0 = s.lpBuf0 := by simp [stepK3]
@[simp] theorem stepK3_lpBuf1 : (stepK3 s).lpBuf1 = s.lpBuf1 := by simp [stepK3]
@[simp] theorem stepK3_hpBuf0 : (stepK3 s).hpBuf0 = s.hpBuf0 := by simp [stepK3]
@[simp] theorem stepK3_hpBuf1 : (stepK3 s).hpBuf1 = s.hpBuf1 := by simp [stepK3]
@[simp] theorem stepK3_cutLp : (stepK3 s).cutLp = s.cutLp := by simp [stepK3]
@[simp] theorem stepK3_fbLp : (stepK3 s).fbLp = s.fbLp := by simp [stepK3]
@[simp] theorem stepK3_cutHp : (stepK3 s).cutHp = s.cutHp := by simp [stepK3]
@[simp] theorem stepK3_fbHp : (stepK3 s).fbHp = s.fbHp := by simp [stepK3]
@[simp] theorem stepK3_rate : (stepK3 s).rate = s.rate := by simp [stepK3]
@[simp] theorem stepK3_bitres : (stepK3 s).bitres = s.bitres := by simp [stepK3]
@[simp] theorem stepK3_grainSize : (stepK3 s).grainSize = s.grainSize := by simp [stepK3]
@[simp] theorem stepK3_stretch : (stepK3 s).stretch = s.stretch := by simp [stepK3]
@[simp] theorem stepK3_gest : (stepK3 s).gest = s.gest := by simp [stepK3]
@[simp] theorem stepK3_msNow : (stepK3 s).msNow = s.msNow := by simp [stepK3]
@[simp] theorem stepK3_tickEn : (stepK3 s).tickEn = s.tickEn := by simp [stepK3]
@[simp] theorem stepK3_ovr : (stepK3 s).ovr = s.ovr := by simp [stepK3]
@[simp] theorem stepK3_tickPend : (stepK3 s).tickPend = s.tickPend := by simp [stepK3]
@[simp] theorem stepK3_storeA : (stepK3 s).storeA = s.storeA := by simp [stepK3]
@[simp] theorem stepK3_storeB : (stepK3 s).storeB = s.storeB := by simp [stepK3]
@[simp] theorem stepK3_ain : (stepK3 s).ain = s.ain := by simp [stepK3]
@[simp] theorem stepK3_freeSpace : (stepK3 s).freeSpace = s.freeSpace.tail := by simp [stepK3]
@[simp] theorem stepK3_stim : (stepK3 s).stim = s.stim := by simp [stepK3]

/-! ### controlTick -/

@[simp] theorem controlTick_phase : (controlTick s).phase = s.phase := by simp [controlTick]
@[simp] theorem controlTick_dir : (controlTick s).dir = gestRev s.gest := by simp [controlTick]
@[simp] theorem controlTick_spg : (controlTick s).spg = BitVec.ofNat 24 (spgCalc s.stretch.toNat s.grainSize.toNat s.rate.toNat s.recRate.toNat) := by simp [controlTick]
@[simp] theorem controlTick_inSample : (controlTick s).inSample = s.inSample := by simp [controlTick]
@[simp] theorem controlTick_rbuf : (controlTick s).rbuf = s.rbuf := by simp [controlTick]
@[simp] theorem controlTick_d0 : (controlTick s).d0 = s.d0 := by simp [controlTick]
@[simp] theorem controlTick_d1 : (controlTick s).d1 = s.d1 := by simp [controlTick]
@[simp] theorem controlTick_mix : (controlTick s).mix = s.mix := by simp [controlTick]
@[simp] theorem controlTick_outSample : (controlTick s).outSample = s.outSample := by simp [controlTick]
@[simp] theorem controlTick_tout : (controlTick s).tout = s.tout := by simp [controlTick]
@[simp] theorem controlTick_lpBuf0 : (controlTick s).lpBuf0 = s.lpBuf0 := by simp [controlTick]
@[simp] theorem controlTick_lpBuf1 : (controlTick s).lpBuf1 = s.lpBuf1 := by simp [controlTick]
@[simp] theorem controlTick_hpBuf0 : (controlTick s).hpBuf0 = s.hpBuf0 := by simp [controlTick]
@[simp] theorem controlTick_hpBuf1 : (controlTick s).hpBuf1 = s.hpBuf1 := by simp [controlTick]
@[simp] theorem controlTick_cutLp : (controlTick s).cutLp = s.cutLp := by simp [controlTick]
@[simp] theorem controlTick_fbLp : (controlTick s).fbLp = s.fbLp := by simp [controlTick]
@[simp] theorem controlTick_cutHp : (controlTick s).cutHp = s.cutHp := by simp [controlTick]
@[simp] theorem controlTick_fbHp : (controlTick s).fbHp = s.fbHp := by simp [controlTick]
@[simp] theorem controlTick_rate : (controlTick s).rate = s.rate := by simp [controlTick]
@[simp] theorem controlTick_bitres : (controlTick s).bitres = s.bitres := by simp [controlTick]
@[simp] theorem controlTick_grainSize : (controlTick s).grainSize = s.grainSize := by simp [controlTick]
@[simp] theorem controlTick_stretch : (controlTick s).stretch = s.stretch := by simp [controlTick]
@[simp] theorem controlTick_gest : (controlTick s).gest = s.gest := by simp [controlTick]
@[simp] theorem controlTick_msNow : (controlTick s).msNow = s.msNow := by simp [controlTick]
@[simp] theorem controlTick_tickEn : (controlTick s).tickEn = s.tickEn := by simp [controlTick]
@[simp] theorem controlTick_ovr : (controlTick s).ovr = s.ovr := by simp [controlTick]
@[simp] theorem controlTick_tickPend : (controlTick s).tickPend = s.tickPend := by simp [controlTick]
@[simp] theorem controlTick_storeA : (controlTick s).storeA = s.storeA := by simp [controlTick]
@[simp] theorem controlTick_storeB : (controlTick s).storeB = s.storeB := by simp [controlTick]
@[simp] theorem controlTick_ain : (controlTick s).ain = s.ain := by simp [controlTick]
@[simp] theorem controlTick_freeSpace : (controlTick s).freeSpace = s.freeSpace.tail := by simp [controlTick]
@[simp] theorem controlTick_stim : (controlTick s).stim = s.stim := by simp [controlTick]

end Sys2Proof.Machine
end

