-- ==== Sys2Proof/Laws/Memory.lean ====
section
/-! SUPPORT. The laws of byte memories: a read after a write, the canonical form kept by every memory operation,
equal reads of canonical memories. -/

namespace Sys2Proof.Machine

theorem memWfFrom_mono {top lo lo' : Nat} (h : lo' ≤ lo) : ∀ {m : Memory},
    memWfFrom top lo m = true → memWfFrom top lo' m = true
  | [], _ => rfl
  | (k, v) :: rest, hm => by
    simp only [memWfFrom, Bool.and_eq_true, decide_eq_true_eq] at hm ⊢
    exact ⟨⟨⟨by omega, hm.1.1.2⟩, hm.1.2⟩, hm.2⟩

/-- Below the first offset a canonical memory lists nothing. -/
theorem memRead_below {top lo a : Nat} (h : a < lo) : ∀ {m : Memory},
    memWfFrom top lo m = true → memRead m a = Config.unlistedByte
  | [], _ => rfl
  | (k, v) :: rest, hm => by
    simp only [memWfFrom, Bool.and_eq_true, decide_eq_true_eq] at hm
    simp only [memRead]
    rw [if_neg (by omega)]
    exact memRead_below (lo := k + 1) (by omega) hm.2

/-- A write leaves every other offset alone, whatever the memory's form. -/
theorem memRead_memWrite_other {a b : Nat} (h : b ≠ a) (v : Byte) : ∀ m : Memory,
    memRead (memWrite m a v) b = memRead m b
  | [] => by
    simp only [memWrite]
    split
    · rfl
    · simp [memRead, Ne.symm h]
  | (k, w) :: rest => by
    simp only [memWrite]
    split
    · split
      · rfl
      · simp [memRead, Ne.symm h]
    · split
      · next hk =>
        subst hk
        split <;> simp [memRead, Ne.symm h]
      · simp only [memRead]
        rw [memRead_memWrite_other h v rest]

/-- A read after a write to the same offset of a canonical memory gives the byte written. -/
theorem memRead_memWrite_same {top lo a : Nat} (v : Byte) : ∀ {m : Memory},
    memWfFrom top lo m = true → memRead (memWrite m a v) a = v
  | [], _ => by
    simp only [memWrite]
    split
    · next h => simp [memRead, h]
    · simp [memRead]
  | (k, w) :: rest, hm => by
    simp only [memWfFrom, Bool.and_eq_true, decide_eq_true_eq] at hm
    simp only [memWrite]
    split
    · next hlt =>
      split
      · next hv =>
        simp only [memRead]
        rw [if_neg (by omega), memRead_below (lo := k + 1) (by omega) hm.2, hv]
      · simp [memRead]
    · split
      · next hk =>
        subst hk
        split
        · next hv => rw [memRead_below (lo := a + 1) (by omega) hm.2, hv]
        · simp [memRead]
      · next hne =>
        simp only [memRead]
        rw [if_neg (fun h => hne h.symm)]
        exact memRead_memWrite_same v hm.2

/-- A write inside the memory keeps the canonical form. -/
theorem memWfFrom_memWrite {top lo a : Nat} (ha : a < top) (v : Byte) : ∀ {m : Memory},
    lo ≤ a → memWfFrom top lo m = true → memWfFrom top lo (memWrite m a v) = true
  | [], hlo, _ => by
    simp only [memWrite]
    split
    · rfl
    · next hv => simp [memWfFrom, hlo, ha]; exact hv
  | (k, w) :: rest, hlo, hm => by
    have hm' := hm
    simp only [memWfFrom, Bool.and_eq_true, decide_eq_true_eq] at hm
    simp only [memWrite]
    split
    · next hlt =>
      split
      · exact hm'
      · next hv =>
        simp only [memWfFrom, Bool.and_eq_true, decide_eq_true_eq]
        exact ⟨⟨⟨hlo, ha⟩, by simpa using hv⟩, ⟨⟨by omega, hm.1.1.2⟩, hm.1.2⟩, hm.2⟩
    · split
      · next hk =>
        subst hk
        split
        · exact memWfFrom_mono (by omega) hm.2
        · next hv =>
          simp only [memWfFrom, Bool.and_eq_true, decide_eq_true_eq]
          exact ⟨⟨⟨hlo, ha⟩, by simpa using hv⟩, hm.2⟩
      · next hne =>
        simp only [memWfFrom, Bool.and_eq_true, decide_eq_true_eq]
        exact ⟨hm.1, memWfFrom_memWrite ha v (by omega) hm.2⟩

/-- Every memory operation keeps the canonical form: one byte. -/
theorem memWf_memWrite {top a : Nat} {m : Memory} (ha : a < top) (v : Byte) (h : memWf top m = true) :
    memWf top (memWrite m a v) = true :=
  memWfFrom_memWrite ha v (Nat.zero_le a) h

/-- Every memory operation keeps the canonical form: one record. -/
theorem memWf_writeRecord {top b : Nat} {m : Memory} (hb : b + 2 < top) (p : Packed) (h : memWf top m = true) :
    memWf top (writeRecord m b p) = true :=
  memWf_memWrite (by omega) _ (memWf_memWrite (by omega) _ (memWf_memWrite (by omega) _ h))

/-- A record's write leaves every byte outside its three alone. -/
theorem memRead_writeRecord_other {a b : Nat} (h : a < b ∨ b + 2 < a) (m : Memory) (p : Packed) :
    memRead (writeRecord m b p) a = memRead m a := by
  unfold writeRecord
  rw [memRead_memWrite_other (by omega), memRead_memWrite_other (by omega), memRead_memWrite_other (by omega)]

/-- The record read back at the base it was written at. -/
theorem recordAt_writeRecord {top b : Nat} {m : Memory} (hb : b + 2 < top) (p : Packed)
    (h : memWf top m = true) : recordAt (writeRecord m b p) b = p := by
  have h1 := memWf_memWrite (a := b) (by omega) p.y0 h
  have h2 := memWf_memWrite (a := b + 1) (by omega) p.y1 h1
  unfold recordAt writeRecord
  rw [memRead_memWrite_other (a := b + 2) (b := b) (by omega),
    memRead_memWrite_other (a := b + 1) (b := b) (by omega),
    memRead_memWrite_same p.y0 h, memRead_memWrite_other (a := b + 2) (b := b + 1) (by omega),
    memRead_memWrite_same p.y1 h1, memRead_memWrite_same p.y2 h2]

/-- Two canonical memories that read alike everywhere are equal. -/
theorem memory_ext {top lo : Nat} : ∀ {m n : Memory}, memWfFrom top lo m = true → memWfFrom top lo n = true →
    (∀ a, memRead m a = memRead n a) → m = n
  | [], [], _, _, _ => rfl
  | [], (k, v) :: rest, _, hn, h => by
    simp only [memWfFrom, Bool.and_eq_true, decide_eq_true_eq] at hn
    have hk := h k
    simp only [memRead, if_true] at hk
    simp [← hk] at hn
  | (k, v) :: rest, [], hm, _, h => by
    simp only [memWfFrom, Bool.and_eq_true, decide_eq_true_eq] at hm
    have hk := h k
    simp only [memRead, if_true] at hk
    simp [hk] at hm
  | (k, v) :: r, (j, w) :: q, hm, hn, h => by
    simp only [memWfFrom, Bool.and_eq_true, decide_eq_true_eq] at hm hn
    have hkj : k = j := by
      rcases Nat.lt_trichotomy k j with hlt | heq | hgt
      · have hk := h k
        simp only [memRead, if_true] at hk
        rw [if_neg (by omega), memRead_below (lo := j + 1) (by omega) hn.2] at hk
        simp [hk] at hm
      · exact heq
      · have hj := h j
        simp only [memRead, if_true] at hj
        rw [if_neg (by omega), memRead_below (lo := k + 1) (by omega) hm.2] at hj
        simp [← hj] at hn
    subst hkj
    have hvw : v = w := by simpa [memRead] using h k
    subst hvw
    have : r = q := memory_ext hm.2 hn.2 fun a => by
      by_cases hak : k = a
      · subst hak
        rw [memRead_below (lo := k + 1) (by omega) hm.2, memRead_below (lo := k + 1) (by omega) hn.2]
      · simpa [memRead, hak] using h a
    rw [this]

end Sys2Proof.Machine
end

