-- ==== Sys2Proof/Laws/Ops.lean ====
section
/-! SUPPORT. What each shared operation can do, said once: the storage primitives, the mapped transactions, the grain
step, the record and playback steps, the slot table, the outcome wrapper. -/

namespace Sys2Proof.Machine

/-! ### Slots -/

@[simp] theorem slotGet_slotSet_same {α : Type} (t : PerSlot α) (k : SlotId) (v : α) :
    slotGet (slotSet t k v) k = v := by cases k <;> rfl

theorem slotGet_slotSet_other {α : Type} (t : PerSlot α) {j k : SlotId} (h : j ≠ k) (v : α) :
    slotGet (slotSet t k v) j = slotGet t j := by
  cases j <;> cases k <;> first | rfl | exact absurd rfl h

theorem sigma_eq (k : SlotId) : sigma k = 1 ∨ sigma k = -1 := by cases k <;> decide

/-- A cursor of a slot at a distance in 0 .. 65533 has its record inside the device (R176, R183). -/
theorem baseInRange_of_dist {k : SlotId} {c : Int} (h0 : 0 ≤ distOf k c) (h1 : distOf k c ≤ 65533) :
    baseInRange (recordBase k c) = true := by
  cases k <;> simp [baseInRange, recordBase, distOf, sigma, origin] at * <;> omega

/-- The cursor at a distance from the origin is a function of that distance. -/
theorem cursor_of_dist (k : SlotId) (c : Int) : c = origin k + sigma k * distOf k c := by
  cases k <;> simp [distOf, sigma, origin]

/-- A device offset survives the narrowing to a cursor register. -/
theorem toCursor_toInt {x : Int} (h0 : -16777216 ≤ x) (h1 : x < 16777216) : (toCursor x).toInt = x := by
  show (BitVec.ofInt 25 x).toInt = x
  rw [BitVec.toInt_ofInt, Int.bmod_def]
  norm_num
  split <;> omega

/-! ### Outcomes -/

@[simp] theorem outcomeOf_eq_next (o : Option State) (t : State) : outcomeOf o = .next t ↔ o = some t := by
  cases o <;> simp [outcomeOf]

@[simp] theorem outcomeOf_some (t : State) : outcomeOf (some t) = .next t := rfl

@[simp] theorem outcomeOf_none : outcomeOf none = .refused .storageBaseOutOfRange := rfl

/-! ### The storage primitives -/

/-- All a `StoreRead` can do: give the record at an in-range base and let it cross the port. -/
theorem storeRead_eq_some (s : State) (c : Chip) (b : Int) (r : Packed × State) :
    storeRead s c b = some r ↔
      baseInRange b = true ∧ r.1 = recordAt (deviceOf s c) b.toNat ∧
        r.2 = logEvent s (.storeRead c b.toNat r.1.y0 r.1.y1 r.1.y2) := by
  unfold storeRead
  split
  · next h =>
    constructor
    · intro e
      cases e
      exact ⟨h, rfl, rfl⟩
    · rintro ⟨-, h1, h2⟩
      rw [← h1]
      exact congrArg some (Prod.ext rfl (h1 ▸ h2.symm))
  · next h => simp [h]

/-- All a `StoreWrite` can do: write the record at an in-range base and let it cross the port. -/
theorem storeWrite_eq_some (s : State) (c : Chip) (b : Int) (p : Packed) (t : State) :
    storeWrite s c b p = some t ↔
      baseInRange b = true ∧
        t = logEvent (withDevice s c (writeRecord (deviceOf s c) b.toNat p))
          (.storeWrite c b.toNat p.y0 p.y1 p.y2) := by
  unfold storeWrite
  split
  · next h => simp [h, eq_comm]
  · next h => simp [h]

/-- All a mapped read can do (R180). -/
theorem mappedRead_eq_some (s : State) (k : SlotId) (c : Int) (r : (Sample × Sample) × State) :
    mappedRead s k c = some r ↔
      baseInRange (recordBase k c) = true ∧
        r.1 = unpack (recordAt (deviceOf s (chipOf k)) (recordBase k c).toNat) ∧
        r.2 = logEvent s (.storeRead (chipOf k) (recordBase k c).toNat
          (recordAt (deviceOf s (chipOf k)) (recordBase k c).toNat).y0
          (recordAt (deviceOf s (chipOf k)) (recordBase k c).toNat).y1
          (recordAt (deviceOf s (chipOf k)) (recordBase k c).toNat).y2) := by
  unfold mappedRead storeRead
  split
  · next h =>
    simp only [Option.map_some, Option.some.injEq, h, true_and]
    constructor
    · rintro rfl; exact ⟨rfl, rfl⟩
    · rintro ⟨h1, h2⟩; exact Prod.ext h1.symm h2.symm
  · next h => simp [h]

/-- All a mapped write can do (R181). -/
theorem mappedWrite_eq_some (s : State) (k : SlotId) (c : Int) (a b : Sample) (t : State) :
    mappedWrite s k c a b = some t ↔
      baseInRange (recordBase k c) = true ∧
        t = logEvent (withDevice s (chipOf k)
            (writeRecord (deviceOf s (chipOf k)) (recordBase k c).toNat (pack a b)))
          (.storeWrite (chipOf k) (recordBase k c).toNat (pack a b).y0 (pack a b).y1 (pack a b).y2) :=
  storeWrite_eq_some s (chipOf k) (recordBase k c) (pack a b) t

@[simp] theorem deviceOf_withDevice_same (s : State) (c : Chip) (m : Memory) :
    deviceOf (withDevice s c m) c = m := by cases c <;> rfl

theorem deviceOf_withDevice_other (s : State) {c d : Chip} (h : d ≠ c) (m : Memory) :
    deviceOf (withDevice s c m) d = deviceOf s d := by
  cases c <;> cases d <;> first | rfl | exact absurd rfl h

@[simp] theorem deviceOf_logEvent (s : State) (e : PortEvent) (c : Chip) :
    deviceOf (logEvent s e) c = deviceOf s c := by cases c <;> rfl

/-! ### The grain step -/

/-- All the closing of a grain step can do to `GCNT` and `GADDR` (R203). -/
theorem countGrain_cases (s : State) (k : SlotId) :
    (s.spg ≤ s.gcnt + 1#24 ∧ (countGrain s k).gcnt = 0#24 ∧
        (countGrain s k).gaddr = toCursor (grainNextOf s k)) ∨
      (¬s.spg ≤ s.gcnt + 1#24 ∧ (countGrain s k).gcnt = s.gcnt + 1#24 ∧ (countGrain s k).gaddr = s.gaddr) := by
  by_cases h : s.spg ≤ s.gcnt + 1#24
  · left; simp [countGrain, h, grainNextOf, endOf]
  · right; simp [countGrain, h]

/-- All a grain step can do (R203). -/
theorem grainStep_eq_some (s : State) (k : SlotId) (t : State) :
    grainStep s k = some t ↔
      ∃ r, mappedRead s k (grainPosOf s k) = some r ∧
        t = { countGrain { r.2 with d0 := r.1.1, d1 := r.1.2, mix := BitVec.ofInt 12 (signal r.1.1) } k with
              tout := .substituted } := by
  simp only [grainStep, Option.map_eq_some_iff]
  constructor <;> rintro ⟨r, h, e⟩ <;> exact ⟨r, h, e.symm⟩

/-! ### The record and playback steps -/

/-- All the packed write of an odd record tick can do (R260). -/
theorem recordPair_eq_some (s t : State) :
    recordPair s = some t ↔
      ∃ u, mappedWrite s s.slot s.wcur.toInt s.rbuf s.inSample = some u ∧
        t = checkOverflow (advanceWrite u) := by
  simp only [recordPair, Option.map_eq_some_iff]
  constructor <;> rintro ⟨r, h, e⟩ <;> exact ⟨r, h, e.symm⟩

/-- All the packed read and sampling of an even playback tick can do (R254). -/
theorem readAndSample_eq_some (s t : State) :
    readAndSample s = some t ↔
      ∃ r, mappedRead s s.slot s.pcur.toInt = some r ∧
        t = sampleInput { r.2 with d0 := r.1.1, d1 := r.1.2 } := by
  simp only [readAndSample, Option.map_eq_some_iff]
  constructor <;> rintro ⟨r, h, e⟩ <;> exact ⟨r, h, e.symm⟩

/-- All steps S1 to S4 of a substituted tick can do (R264). -/
theorem playSubstituted_eq_some (s t : State) :
    playSubstituted s = some t ↔
      ∃ u, readAndSample (emitOutput (beginTick s)) = some u ∧ grainStep u u.slot = some t := by
  simp only [playSubstituted, Option.bind_eq_some_iff]

/-- A timer event runs the audio tick or is held (R313). -/
theorem timerEvent_cases (s : State) :
    (s.tickEn = true ∧ timerEvent s = audioTick s) ∨
      (s.tickEn = false ∧ timerEvent s = .next (holdTimerEvent s)) := by
  cases h : s.tickEn <;> simp [timerEvent, h]

/-- A write to `CTRL` runs a pending audio tick, or only sets the bits (R296). -/
theorem writeCtrl_cases (en clr : Bool) (s : State) :
    (en = true ∧ s.tickPend = true ∧
        writeCtrl en clr s = audioTick { s with ovr := s.ovr && !clr, tickEn := true, tickPend := false }) ∨
      (¬(en = true ∧ s.tickPend = true) ∧
        writeCtrl en clr s = .next { s with ovr := s.ovr && !clr, tickEn := en }) := by
  cases en <;> cases h : s.tickPend <;> simp [writeCtrl, h]

end Sys2Proof.Machine
end

