-- ==== Sys2Proof/Laws/PerInstr.lean ====
section
/-! SUPPORT. A statement about every row of the opcode table, proved constructor by constructor: the word the encoder
writes has the bits the row fixes (30_encoding.md rules R104, R108, R109, R110). -/

namespace Sys2Proof.Laws

/-- The bits an opcode-table row of the three word formats fixes: a mask and the value under it. -/
inductive RowBits where
  | stim (mask value : StimWord)
  | td (mask value : TickWord)
  | cd (mask value : ControlWord)

/-- The fixed bits of each row that has an encoding (R110). -/
def rowBits : Instr → Option RowBits
  | .hrd _ => some (.stim 0xC0000000 0x00000000)
  | .hwr _ _ => some (.stim 0xC0000000 0x80000000)
  | .atick _ => some (.stim 0xC0000000 0x40000000)
  | .reset => some (.stim 0xC0000000 0xC0000000)
  | .ctick => some (.stim 0xFF000001 0x8F000001)
  | .hwrCtrl _ _ => some (.stim 0xFF000000 0x80000000)
  | .atOff => some (.td 0x87 0x00)
  | .atPass => some (.td 0x87 0x01)
  | .atRecE => some (.td 0x8F 0x02)
  | .atRecO => some (.td 0x8F 0x0A)
  | .atDone => some (.td 0x87 0x03)
  | .atPlayE => some (.td 0xBF 0x04)
  | .atPlayO => some (.td 0x8F 0x0C)
  | .atPlayG => some (.td 0x9F 0x14)
  | .atPlayF => some (.td 0xBF 0x24)
  | .dspFq => some (.td 0xC0 0x00)
  | .dspByp => some (.td 0xC0 0x40)
  | .ctRecstart _ => some (.cd 0xE601 0x0001)
  | .ctPlaystart _ => some (.cd 0xE600 0x0000)
  | .ctRecstop => some (.cd 0xE700 0x0200)
  | .ctRecack => some (.cd 0xE701 0x0300)
  | .ctPlaystop => some (.cd 0xE700 0x0400)
  | .ctNone => some (.cd 0xE000 0x0000)
  | .ctDir => some (.cd 0xE000 0x0000)
  | .ctSpg => some (.cd 0xE000 0x0000)
  | .ctMod => some (.cd 0xE000 0x0000)
  | .ctRate => some (.cd 0xE000 0x0000)
  | .ctCommit => none
  | .mapSr _ _ => none
  | .mapSw _ _ _ _ => none
  | .grStep _ => none

/-- An encoding has a row's fixed bits, in the row's format; a row without an encoding has none. -/
def agrees : Option Encoded → Option RowBits → Prop
  | some (.stim w), some (.stim m v) => w &&& m = v
  | some (.td w), some (.td m v) => w &&& m = v
  | some (.cd w), some (.cd m v) => w &&& m = v
  | none, none => True
  | _, _ => False

/-- The kind bits of a stimulus word are its top two (R104). -/
theorem stimWordOf_kind (kind : BitVec 2) (reg : RegNumber) (data : Word24) :
    stimWordOf kind reg data &&& 0xC0000000#32 = kind ++ 0#6 ++ 0#24 := by
  have h : (0xC0000000#32 : BitVec 32) = (3#2 ++ 0#6 ++ 0#24 : BitVec 32) := by decide
  have k : kind &&& 3#2 = kind := by revert kind; decide
  rw [h, stimWordOf, BitVec.and_append, BitVec.and_append, k, BitVec.and_zero, BitVec.and_zero]

/-- The encoding of `i` has the bits its row fixes. -/
def EncodingMatchesRow.Statement (i : Instr) : Prop := agrees (encode i) (rowBits i)

theorem EncodingMatchesRow.hrd (reg : RegNumber) : EncodingMatchesRow.Statement (.hrd reg) :=
  (stimWordOf_kind 0#2 reg 0#24).trans (by decide)
theorem EncodingMatchesRow.hwr (reg : RegNumber) (data : Word24) : EncodingMatchesRow.Statement (.hwr reg data) :=
  (stimWordOf_kind 2#2 reg data).trans (by decide)
theorem EncodingMatchesRow.atick (ain : Sample) : EncodingMatchesRow.Statement (.atick ain) :=
  (stimWordOf_kind 1#2 0#6 _).trans (by decide)
theorem EncodingMatchesRow.reset : EncodingMatchesRow.Statement .reset :=
  (stimWordOf_kind 3#2 0#6 0#24).trans (by decide)
theorem EncodingMatchesRow.ctick : EncodingMatchesRow.Statement .ctick :=
  show stimWordOf 2#2 0x0F#6 1#24 &&& 0xFF000001#32 = 0x8F000001#32 by decide
theorem EncodingMatchesRow.hwrCtrl (tickEn ovrClear : Bool) :
    EncodingMatchesRow.Statement (.hwrCtrl tickEn ovrClear) := by
  show stimWordOf 2#2 0#6 (0#22 ++ BitVec.ofBool ovrClear ++ BitVec.ofBool tickEn : BitVec 24) &&& 0xFF000000#32 =
    0x80000000#32
  revert tickEn ovrClear
  decide
theorem EncodingMatchesRow.atOff : EncodingMatchesRow.Statement .atOff :=
  show 0x00#8 &&& 0x87#8 = 0x00#8 by decide
theorem EncodingMatchesRow.atPass : EncodingMatchesRow.Statement .atPass :=
  show 0x01#8 &&& 0x87#8 = 0x01#8 by decide
theorem EncodingMatchesRow.atRecE : EncodingMatchesRow.Statement .atRecE :=
  show 0x02#8 &&& 0x8F#8 = 0x02#8 by decide
theorem EncodingMatchesRow.atRecO : EncodingMatchesRow.Statement .atRecO :=
  show 0x0A#8 &&& 0x8F#8 = 0x0A#8 by decide
theorem EncodingMatchesRow.atDone : EncodingMatchesRow.Statement .atDone :=
  show 0x03#8 &&& 0x87#8 = 0x03#8 by decide
theorem EncodingMatchesRow.atPlayE : EncodingMatchesRow.Statement .atPlayE :=
  show 0x04#8 &&& 0xBF#8 = 0x04#8 by decide
theorem EncodingMatchesRow.atPlayO : EncodingMatchesRow.Statement .atPlayO :=
  show 0x0C#8 &&& 0x8F#8 = 0x0C#8 by decide
theorem EncodingMatchesRow.atPlayG : EncodingMatchesRow.Statement .atPlayG :=
  show 0x14#8 &&& 0x9F#8 = 0x14#8 by decide
theorem EncodingMatchesRow.atPlayF : EncodingMatchesRow.Statement .atPlayF :=
  show 0x24#8 &&& 0xBF#8 = 0x24#8 by decide
theorem EncodingMatchesRow.dspFq : EncodingMatchesRow.Statement .dspFq :=
  show 0x00#8 &&& 0xC0#8 = 0x00#8 by decide
theorem EncodingMatchesRow.dspByp : EncodingMatchesRow.Statement .dspByp :=
  show 0x40#8 &&& 0xC0#8 = 0x40#8 by decide
theorem EncodingMatchesRow.ctRecstart (k : SlotId) : EncodingMatchesRow.Statement (.ctRecstart k) := by
  show controlWordFor 0#3 (gestWith k true) &&& 0xE601#16 = 0x0001#16
  cases k <;> decide
theorem EncodingMatchesRow.ctPlaystart (k : SlotId) : EncodingMatchesRow.Statement (.ctPlaystart k) := by
  show controlWordFor 0#3 (gestWith k false) &&& 0xE600#16 = 0x0000#16
  cases k <;> decide
theorem EncodingMatchesRow.ctRecstop : EncodingMatchesRow.Statement .ctRecstop :=
  show controlWordFor 2#3 0#8 &&& 0xE700#16 = 0x0200#16 by decide
theorem EncodingMatchesRow.ctRecack : EncodingMatchesRow.Statement .ctRecack :=
  show controlWordFor 3#3 0#8 &&& 0xE701#16 = 0x0300#16 by decide
theorem EncodingMatchesRow.ctPlaystop : EncodingMatchesRow.Statement .ctPlaystop :=
  show controlWordFor 4#3 0#8 &&& 0xE700#16 = 0x0400#16 by decide
theorem EncodingMatchesRow.ctNone : EncodingMatchesRow.Statement .ctNone :=
  show controlWordFor 0#3 0#8 &&& 0xE000#16 = 0x0000#16 by decide
theorem EncodingMatchesRow.ctDir : EncodingMatchesRow.Statement .ctDir :=
  show controlWordFor 0#3 0#8 &&& 0xE000#16 = 0x0000#16 by decide
theorem EncodingMatchesRow.ctSpg : EncodingMatchesRow.Statement .ctSpg :=
  show controlWordFor 0#3 0#8 &&& 0xE000#16 = 0x0000#16 by decide
theorem EncodingMatchesRow.ctMod : EncodingMatchesRow.Statement .ctMod :=
  show controlWordFor 0#3 0#8 &&& 0xE000#16 = 0x0000#16 by decide
theorem EncodingMatchesRow.ctRate : EncodingMatchesRow.Statement .ctRate :=
  show controlWordFor 0#3 0#8 &&& 0xE000#16 = 0x0000#16 by decide
theorem EncodingMatchesRow.ctCommit : EncodingMatchesRow.Statement .ctCommit := trivial
theorem EncodingMatchesRow.mapSr (s : SlotId) (c : Cursor) : EncodingMatchesRow.Statement (.mapSr s c) := trivial
theorem EncodingMatchesRow.mapSw (s : SlotId) (c : Cursor) (a b : Sample) :
    EncodingMatchesRow.Statement (.mapSw s c a b) := trivial
theorem EncodingMatchesRow.grStep (s : SlotId) : EncodingMatchesRow.Statement (.grStep s) := trivial

end Sys2Proof.Laws
end

