-- ==== Sys2Proof/Tests/Slice0.lean ====
section
/-! SUPPORT. The model's own tests: ill-formed terms refused; one word of every constructor, written out from the
tables of 30_encoding.md; one step of every operation with the numbers of 95_test_vectors.md and of the rules'
examples; for every statement with hypotheses a concrete state and operands that meet them. -/

namespace Sys2Proof.Tests

open Sys2Proof Sys2Proof.Machine

/-! ### Well-formedness: each check refuses an ill-formed term -/

theorem test_wellFormed_write_to_ctrl_is_specialised : (Instr.hwr 0x00#6 1#24).wellFormed = false := by decide
theorem test_wellFormed_tick_request_is_specialised : (Instr.hwr 0x0F#6 1#24).wellFormed = false := by decide
theorem test_wellFormed_cmd_zero_stays_a_write : (Instr.hwr 0x0F#6 2#24).wellFormed = true := by decide
theorem test_wellFormed_read_past_the_top : (Instr.mapSr .slot0 65534#25).wellFormed = false := by decide
theorem test_wellFormed_read_below_zero : (Instr.mapSr .slot1 1#25).wellFormed = false := by decide
theorem test_wellFormed_write_past_the_top : (Instr.mapSw .slot2 65534#25 0 0).wellFormed = false := by decide
theorem test_wellFormed_write_below_zero : (Instr.mapSw .slot3 1#25 0 0).wellFormed = false := by decide

/-! ### Decoding: words written out bit by bit from R104, R108, R109 -/

/-- R113: `HRD STATUS` = 0x11000000. -/
theorem test_decode_hrd : decodeStim 0b00010001000000000000000000000000#32 = .hrd 0x11#6 := by decide
/-- R291: `HWR BITRES, 13` = 0x8400000D. -/
theorem test_decode_hwr : decodeStim 0b10000100000000000000000000001101#32 = .hwr 0x04#6 13#24 := by decide
/-- R104: `ATICK 0x123`, the reserved bits 29:12 ignored. -/
theorem test_decode_atick : decodeStim 0b01111111111111111111000100100011#32 = .atick 0x123#12 := by decide
/-- R113: `RESET` = 0xC0000000. -/
theorem test_decode_reset : decodeStim 0b11000000000000000000000000000000#32 = .reset := by decide
/-- R113: `CTICK` = 0x8F000001; bits 23:1 are ignored (R293). -/
theorem test_decode_ctick :
    decodeStim 0x8F000001#32 = .ctick ∧ decodeStim 0x8FFFFFFF#32 = .ctick ∧
      decodeStim 0x8F000002#32 = .hwr 0x0F#6 2#24 := by decide
/-- R113: `EI` = 0x80000001; R296: data bit 1 clears `OVR`. -/
theorem test_decode_hwrCtrl :
    decodeStim 0x80000001#32 = .hwrCtrl true false ∧ decodeStim 0x80000002#32 = .hwrCtrl false true := by decide

/-- R108, rows 1, 2 and 5 of the table: `x` bits are free. -/
theorem test_decode_off_pass_done :
    decodeTick 0b00000000#8 = .ok .off ∧ decodeTick 0b01111000#8 = .ok .off ∧
      decodeTick 0b00000001#8 = .ok .pass ∧ decodeTick 0b00001011#8 = .ok .done := by decide
/-- R108, the two RECORD rows. -/
theorem test_decode_record : decodeTick 0b00000010#8 = .ok .recEven ∧ decodeTick 0b01001010#8 = .ok .recOdd := by
  decide
/-- R108, the PLAYBACK rows. -/
theorem test_decode_playback :
    decodeTick 0b00000100#8 = .ok .playEven ∧ decodeTick 0b00111100#8 = .ok .playOdd ∧
      decodeTick 0b00010100#8 = .ok .playGrain ∧ decodeTick 0b00100100#8 = .ok .playFreeze ∧
      decodeTick 0b00110100#8 = .ok .playGrain := by decide
/-- R108: bit 7 is 0, codes 5 to 7 are reserved. -/
theorem test_decode_tick_refuses :
    decodeTick 0b10000000#8 = .error .tickBitSeven ∧ decodeTick 0b00000101#8 = .error .tickReservedMode := by decide
/-- R108: `TD[6]`. -/
theorem test_decode_dsp : decodeDsp 0b00000100#8 = .ok .dspFq ∧ decodeDsp 0b01000100#8 = .ok .dspByp := by decide

/-- R109 rows 1 and 2 with R107: 0x03 = rec + sel0; 0x04 = sel1 alone; PASSTHROUGH is code 1. -/
theorem test_decode_starts :
    decodeTransition sideCondsMet 0b0000000000000011#16 = .ok (.recStart .slot0) ∧
      decodeTransition sideCondsMet 0b0000000100000100#16 = .ok (.playStart .slot1) := by decide
/-- R109 rows 3 to 6, on slot 2 (`CD[12:11] = 10`), whose select is bit 3 of `GEST`. -/
theorem test_decode_leavings :
    decodeTransition sideCondsMet 0b0001001000000001#16 = .ok .recStop ∧
      decodeTransition sideCondsMet 0b0001001100001000#16 = .ok .recAck ∧
      decodeTransition sideCondsMet 0b0001010000000001#16 = .ok .playStop ∧
      decodeTransition sideCondsMet 0b0001010000001000#16 = .ok .none := by decide
/-- R109: `CD[15:13] = 0`; the unconditional steps read every other word. -/
theorem test_decode_control_words :
    decodeTransition sideCondsMet 0x2000#16 = .error .controlHighBits ∧
      decodeAt .k1 sideCondsMet (.cd 0x0024#16) = .ok .ctDir ∧ decodeAt .k2 sideCondsMet (.cd 0x0024#16) = .ok .ctSpg ∧
      decodeAt .k4 sideCondsMet (.cd 0x0024#16) = .ok .ctMod ∧ decodeAt .k5 sideCondsMet (.cd 0x0024#16) = .ok .ctRate := by
  decide
/-- R110: the shared sub-operations are never decoded, only invoked. -/
theorem test_encode_sub_operations :
    encode .ctCommit = none ∧ encode (.mapSr .slot0 0) = none ∧ encode (.mapSw .slot0 0 0 0) = none ∧
      encode (.grStep .slot0) = none := by decide
/-- R113: the words of the textual form. -/
theorem test_encode_stimuli :
    encode (.hrd 0x11#6) = some (.stim 0x11000000#32) ∧ encode (.hwr 0x04#6 13#24) = some (.stim 0x8400000D#32) ∧
      encode (.atick 0x123#12) = some (.stim 0x40000123#32) ∧ encode .ctick = some (.stim 0x8F000001#32) := by decide

/-- The host's two questions, on a word of each format. -/
theorem test_decodeTableWord :
    decodeTableWord 32 0x8F000001 = some .ctick ∧ decodeTableWord 8 0x0A = some .atRecO ∧
      decodeTableWord 16 0x0203 = some .ctNone ∧ decodeTableWord 12 0 = none := by decide

/-! ### One step of every operation -/

/-- A quantity of the next state, if there is one. -/
def after {α : Type} (o : Host.Outcome State Fault Refusal) (f : State → α) : Option α :=
  match o with
  | .next t => some (f t)
  | .fault _ => none
  | .refused _ => none

/-- The record bytes of programs P3 and P4: record `k` of `STORE[A]`, as far as they are read here. -/
def grainStore : Memory :=
  [(0, 0x80), (1, 0x08), (2, 0x08), (6, 0x82), (7, 0x08), (8, 0x28), (9, 0x83), (10, 0x08), (11, 0x38),
   (21, 0x87), (22, 0x08), (23, 0x78), (27, 0x89), (28, 0x08), (29, 0x98)]

/-- Enabled and bypassed, as the programs start. -/
def bypassed : State := { State.reset with tickEn := true, gest := 0x80 }

/-- P1 before word 7: RECORD on slot 0, odd phase, first pair. -/
def recordingOdd : State :=
  { bypassed with
    mode := .record, gest := 0x83, phase := true, rbuf := 0x111, inSample := 0x111, outSample := 273, mix := -1775
    msNow := 100, tRecStart := 100 }

/-- P7 before word 3: RECORD on slot 0, odd phase, one record short of exhaustion. -/
def recordingLast : State := { recordingOdd with wcur := 65532 }

/-- P7 before word 9: RECORD_DONE on slot 0 with the select released. -/
def recordDone : State :=
  { bypassed with
    mode := .recordDone, wcur := 65535, inSample := 546, rbuf := 273, mix := -1502, outSample := 546
    msNow := 20, tRecStart := 20 }

/-- P1 before word 17: PLAYBACK of slot 0, two records, at the second. -/
def playing : State :=
  { bypassed with
    mode := .playback, gest := 0x82, pcur := 3, d0 := 273, d1 := 546, outSample := 546
    endAddr := ⟨6, 0, 0, 0⟩, recorded := ⟨true, false, false, false⟩, nv := [(2, 6)]
    storeA := [(0, 0x11), (1, 0x12), (2, 0x22), (3, 0x33), (4, 0x34), (5, 0x44)] }

/-- P3 before word 19: PLAYBACK of slot 0 under grain-delay, the last transaction of the first window. -/
def graining : State :=
  { bypassed with
    mode := .playback, gest := 0xC2, grainAct := true, pcur := 6, gaddr := 0, gcnt := 3, spg := 4
    grainSize := 2, stretch := 0x200, outSample := 2088
    endAddr := ⟨30, 0, 0, 0⟩, recorded := ⟨true, false, false, false⟩, nv := [(2, 30)], storeA := grainStore }

/-- P4 before word 27: PLAYBACK of slot 0 under freeze, the last transaction of a window at the anchor. -/
def freezing : State :=
  { graining with
    gest := 0x83, grainAct := false, freezeAct := true, pcur := 21, gaddr := 21, gcnt := 2, spg := 3
    grainSize := 3, anchor := 21 }

/-- PASSTHROUGH with slots 0 and 2 recorded: `NV` of vector V22. -/
def passing : State :=
  { bypassed with
    mode := .passthrough, endAddr := ⟨3, 0, 9, 0⟩, recorded := ⟨true, false, true, false⟩
    nv := [(2, 3), (8, 9)], msNow := 100 }

/-- R290's example: STATUS reads 0x000151 after word 13 of P3. -/
theorem test_hrd_status :
    after (exec (.hrd 0x11) { graining with phase := true, tout := .substituted }) State.trace =
      some [.hostRead 0x11 0x000151] := by decide
/-- R105: `MIX` -1 reads 0xFFFFFF. -/
theorem test_hrd_signed :
    after (exec (.hrd 0x1F) { State.reset with mix := -1 }) State.trace = some [.hostRead 0x1F 0xFFFFFF] := by decide
/-- R291's example: 13 leaves `BITRES` at 12. -/
theorem test_hwr_bitres : after (exec (.hwr 0x04 13) State.reset) State.bitres = some 12 := by decide
/-- R292: `RATE` 0 is forced to 1. -/
theorem test_hwr_rate : after (exec (.hwr 0x03 0x10000) State.reset) State.rate = some 1 := by decide
/-- P5 words 2 and 3: held, then lost. -/
theorem test_atick_held :
    after (exec (.atick 0x123) State.reset) ctrlWord = some 4 ∧
      after (exec (.atick 0x456) { State.reset with tickPend := true }) ctrlWord = some 6 := by decide
/-- P7 word 1. -/
theorem test_atick_runs :
    after (exec (.atick 0xDEF) { recordingOdd with wcur := 65529, rbuf := 0xABC, outSample := 2048 }) State.trace =
      some [.dac 2048, .adc 3567, .storeWrite .a 65529 0xAB 0xCD 0xEF] := by decide
/-- P6 word 1 with R341: the load order is most significant byte first. -/
theorem test_reset_loads :
    after (exec .reset { playing with nv := [(4, 0xFF), (5, 0xE1)] })
      (fun t => (t.mode, t.endAddr, t.recorded, t.trace.length)) =
      some (.off, ⟨0, 65505, 0, 0⟩, ⟨false, true, false, false⟩, 12) := by decide
/-- P1 word 5. -/
theorem test_ctick_record :
    after (exec .ctick { bypassed with gest := 0x83, msNow := 100 })
      (fun t => (t.mode, t.slot, t.wcur, t.tRecStart)) = some (.record, .slot0, 0, 100) := by decide
/-- V21 row 5: refused debounce falls to playback, and `rec` arms freeze. -/
theorem test_ctick_play :
    after (exec .ctick { passing with gest := 0x03, msNow := 59, tRecEnd := 40, recorded := ⟨true, false, false, false⟩ })
      (fun t => (t.mode, statusWord t)) = some (.playback, 0x120) := by decide
/-- P5 word 4. -/
theorem test_hwrCtrl_releases :
    after (exec (.hwrCtrl true true) { State.reset with ovr := true, tickPend := true, ain := 0x456 })
      (fun t => (ctrlWord t, t.trace, t.mix, t.lpBuf0, t.lpBuf1, t.outSample)) =
      some (1, [.dac 2048, .adc 1110], -938, -935, -932, 1116) := by decide
/-- P5 word 5. -/
theorem test_atOff :
    after (exec .atOff { State.reset with phase := true, ain := 2048, outSample := 1116, lpBuf0 := -935, lpBuf1 := -932 })
      (fun t => (t.trace, t.mix, t.outSample, t.phase)) = some ([.dac 1116, .adc 2048], 0, 2040, false) := by decide
/-- P7 word 10. -/
theorem test_atPass :
    after (exec .atPass { passing with ain := 0x555, outSample := 546 }) (fun t => (t.trace, t.mix, t.outSample)) =
      some ([.dac 546, .adc 1365], -683, 1365) := by decide
/-- P1 word 6. -/
theorem test_atRecE :
    after (exec .atRecE { recordingOdd with phase := false, ain := 0x111, outSample := 2048 })
      (fun t => (t.trace, t.rbuf, t.mix, t.outSample)) = some ([.dac 2048, .adc 273], 273, -1775, 273) := by decide
/-- P1 word 7. -/
theorem test_atRecO :
    after (exec .atRecO { recordingOdd with ain := 0x222 }) (fun t => (t.trace, t.wcur, t.storeA)) =
      some ([.dac 273, .adc 546, .storeWrite .a 0 0x11 0x12 0x22], 3, [(0, 0x11), (1, 0x12), (2, 0x22)]) := by decide
/-- P7 word 3. -/
theorem test_atRecO_overflows :
    after (exec .atRecO { recordingLast with ain := 0x222 }) (fun t => (t.mode, t.tout, t.wcur, statusWord t)) =
      some (.recordDone, .terminated, 65535, 0x080) := by decide
/-- P7 word 4. -/
theorem test_atDone :
    after (exec .atDone { recordDone with ain := 0x333, tout := .terminated })
      (fun t => (t.trace, t.inSample, t.outSample, statusWord t)) = some ([], 546, 546, 0x001) := by decide
/-- P1 word 17. -/
theorem test_atPlayE :
    after (exec .atPlayE playing) (fun t => (t.trace, t.d0, t.d1, t.mix, t.pcur)) =
      some ([.dac 546, .storeRead .a 3 0x33 0x34 0x44, .adc 2048], 819, 1092, -1229, 0) := by decide
/-- P1 word 16. -/
theorem test_atPlayO :
    after (exec .atPlayO { playing with phase := true, outSample := 273 }) (fun t => (t.trace, t.mix, t.outSample)) =
      some ([.dac 273, .adc 2048], -1502, 546) := by decide
/-- P3 word 19. -/
theorem test_atPlayG :
    after (exec .atPlayG graining) (fun t => (t.trace, t.mix, t.gcnt, t.gaddr, t.pcur)) =
      some ([.dac 2088, .storeRead .a 6 0x82 0x08 0x28, .adc 2048, .storeRead .a 9 0x83 0x08 0x38], 48, 0, 6, 6) := by
  decide
/-- P4 word 27. -/
theorem test_atPlayF :
    after (exec .atPlayF freezing) (fun t => (t.trace.drop 1, t.mix, t.gcnt, t.gaddr)) =
      some ([.storeRead .a 21 0x87 0x08 0x78, .adc 2048, .storeRead .a 27 0x89 0x08 0x98], 144, 0, 21) := by decide
/-- P2 word 5. -/
theorem test_dspFq :
    after (exec .dspFq { State.reset with mix := 256 }) (fun t => (t.lpBuf0, t.lpBuf1, t.hpBuf0, t.outSample)) =
      some (255, 254, 0, 2302) := by decide
/-- R228's example. -/
theorem test_dspByp : after (exec .dspByp { State.reset with mix := -1775 }) State.outSample = some 273 := by decide
/-- R144: the origin of a descending slot. -/
theorem test_ctRecstart :
    after (exec (.ctRecstart .slot1) { State.reset with rate := 8000, msNow := 7 })
      (fun t => (t.wcur, t.recRate, t.tickRate, t.tRecStart)) = some (65535, 8000, 8000, 7) := by decide
/-- P6 word 6: the reverse start of a descending slot. -/
theorem test_ctPlaystart :
    after (exec (.ctPlaystart .slot1) { State.reset with dir := true, endAddr := ⟨0, 65505, 0, 0⟩, gcnt := 5 })
      (fun t => (t.pcur, t.gaddr, t.gcnt)) = some (65508, 65508, 0) := by decide
/-- P1 word 12. -/
theorem test_ctRecstop :
    after (exec .ctRecstop { recordingOdd with wcur := 6, msNow := 130 })
      (fun t => (t.endAddr.slot0, t.trace, t.tRecEnd, t.mode)) =
      some (6, [.nvWrite 0 0, .nvWrite 1 0, .nvWrite 2 6], 130, .passthrough) := by decide
/-- P7 word 9. -/
theorem test_ctRecack :
    after (exec .ctRecack recordDone) (fun t => (t.endAddr.slot0, t.nv)) = some (65535, [(1, 0xFF), (2, 0xFF)]) := by
  decide
/-- R149. -/
theorem test_ctPlaystop : after (exec .ctPlaystop playing) (fun t => (t.mode, t.pcur)) = some (.passthrough, 3) := by
  decide
/-- V21 row 3. -/
theorem test_ctNone : after (exec .ctNone recordingOdd) State.mode = some .record := by decide
/-- P2 word 9. -/
theorem test_ctDir : after (exec .ctDir { State.reset with gest := 0x24 }) State.dir = some true := by decide
/-- P3 word 6, and the floor and the lower saturation of R208. -/
theorem test_ctSpg :
    after (exec .ctSpg graining) State.spg = some 4 ∧
      after (exec .ctSpg { graining with stretch := 0 }) State.spg = some 1 := by decide
/-- P4 word 22. -/
theorem test_ctMod :
    after (exec .ctMod { freezing with freezeAct := false, anchor := 0, gaddr := 0 })
      (fun t => (t.freezeAct, t.anchor, t.gaddr, t.gcnt, statusWord t)) = some (true, 21, 21, 0, 0x120) := by decide
/-- V23: in RECORD the rate is held, in PASSTHROUGH it is taken. -/
theorem test_ctRate :
    after (exec .ctRate { recordingOdd with rate := 22050, tickRate := 8000 }) State.tickRate = some 8000 ∧
      after (exec .ctRate { passing with rate := 22050, tickRate := 8000 }) State.tickRate = some 22050 := by decide
/-- P8: slot 1 commits 0 at exhaustion, in `NV` offsets 3 to 5 (R151). -/
theorem test_ctCommit :
    after (exec .ctCommit { recordDone with slot := .slot1, wcur := 0, nv := [(4, 7)] })
      (fun t => (t.trace, t.nv, t.recorded.slot1)) =
      some ([.nvWrite 3 0, .nvWrite 4 0, .nvWrite 5 0], [], true) := by decide
/-- R180's example: the record of a descending slot at its origin. -/
theorem test_mapSr :
    after (exec (.mapSr .slot1 65535) { State.reset with storeB := [(65533, 0x90), (65534, 0x09), (65535, 0x10)] })
      State.trace = some [.storeRead .b 65533 0x90 0x09 0x10] ∧
    unpack ⟨0x90, 0x09, 0x10⟩ = (0x900, 0x910) := by decide
/-- R181's example: the last legal write of a descending slot. -/
theorem test_mapSw :
    after (exec (.mapSw .slot1 3 0xABC 0xDEF) State.reset) (fun t => (t.trace, t.storeB)) =
      some ([.storeWrite .b 1 0xAB 0xCD 0xEF], [(1, 0xAB), (2, 0xCD), (3, 0xEF)]) := by decide
/-- P3 word 13. -/
theorem test_grStep :
    after (exec (.grStep .slot0) { graining with gcnt := 0 }) (fun t => (t.trace, t.mix, t.gcnt, t.tout)) =
      some ([.storeRead .a 0 0x80 0x08 0x08], 0, 1, .substituted) := by decide

/-! ### The step and the staged words -/

/-- A staged stimulus, tick and control word is the very next step. -/
theorem test_withFetchWord_runs :
    after (step (State.reset.withFetchWord 32 0x8400000D)) State.bitres = some 12 ∧
      after (step (State.reset.withFetchWord 8 0x4B)) (fun t => (t.mode, t.trace)) = some (.recordDone, []) ∧
      after (step (State.reset.withFetchWord 16 0x0203)) State.mode = some .record ∧
      after (step (State.reset.withFetchWord 16 0x0201)) State.mode = some .passthrough := by decide

/-! ### Witnesses: the hypotheses of every statement, met -/

/-- A state of PLAYBACK under grain-delay meets the invariants. -/
theorem witness_invariants_playback : Invariants graining := by
  constructor <;> first | decide | (intro k; cases k <;> decide)
/-- A state of PLAYBACK under freeze. -/
theorem witness_invariants_freeze : Invariants freezing := by
  constructor <;> first | decide | (intro k; cases k <;> decide)
/-- A state of RECORD one record short of exhaustion. -/
theorem witness_invariants_record : Invariants recordingLast := by
  constructor <;> first | decide | (intro k; cases k <;> decide)
/-- A state of RECORD_DONE. -/
theorem witness_invariants_recordDone : Invariants recordDone := by
  constructor <;> first | decide | (intro k; cases k <;> decide)

theorem witness_EncodedInstructionsDecodeToThemselves :
    (Instr.hwr 0x3F 0xFFFFFF).wellFormed = true ∧ (Instr.mapSr .slot0 65533).wellFormed = true ∧
      (Instr.mapSw .slot1 2 0 0).wellFormed = true := by decide
/-- One word for each clause of the two tables. -/
theorem witness_TickDispatchTable :
    ∀ w ∈ [0x00#8, 0x01#8, 0x02#8, 0x0A#8, 0x03#8, 0x04#8, 0x0C#8, 0x14#8, 0x34#8, 0x24#8, 0x05#8, 0x47#8],
      w.getLsbD 7 = false := by decide
theorem witness_StepRunsTheNextStimulusWord :
    { playing with stim := [0xC0000000] }.stim = 0xC0000000#32 :: [] ∧ playing.stim = [] := by decide
theorem witness_StagedDispatchWordsAreTheNextStep :
    decodeTick (BitVec.ofNat 8 0x7C) = .ok .playOdd ∧
      decodeTransition sideCondsMet (BitVec.ofNat 16 0x1FFF) = .ok .none ∧
      decodeTransition sideCondsMet (BitVec.ofNat 16 0x0020) = .ok .none := by decide
theorem witness_ResetEventEstablishesInvariants :
    (∀ k, ValidEnd k ((storedEnd graining k).toNat : Int)) ∧ memWf Config.devBytes graining.storeA = true ∧
      memWf Config.devBytes graining.storeB = true ∧ memWf Config.nvOffsets graining.nv = true :=
  ⟨witness_invariants_playback.nvValid, by decide, by decide, by decide⟩
theorem witness_EveryStepKeepsInvariants :
    Invariants graining ∧
      after (step { graining with stim := [0x40000800] }) State.gcnt = some 0 :=
  ⟨witness_invariants_playback, by decide⟩
theorem witness_NoStepStopsUnderInvariants : Invariants recordingLast := witness_invariants_record
theorem witness_HostWritesAreLegalised :
    after (exec (.hwr 0x00 1) { recordingOdd with tickPend := true }) State.wcur = some 3 := by decide
theorem witness_UnmappedAndReadOnlyWritesAreIgnored :
    (0x10#6 ≤ 0x10#6 ∧ (0x10#6 : RegNumber) ≤ 0x29#6) ∧ (0x10#6 ≤ 0x29#6) ∧ (0x0B#6 ≤ 0x0B#6 ∧ 0x0B#6 ≤ 0x0E#6) ∧
      (0x0B#6 ≤ 0x0F#6) ∧ 0x2A#6 ≤ 0x2A#6 ∧ 0x2A#6 ≤ 0x3F#6 := by decide
theorem witness_ControlWriteReleasesThePendingTick :
    (true = true ∧ { State.reset with tickPend := true }.tickPend = true) ∧
      ¬(false = true ∧ { State.reset with tickPend := true }.tickPend = true) := by decide
theorem witness_TimerEventRunsOrIsHeld : playing.tickEn = true ∧ State.reset.tickEn = false := by decide
theorem witness_AcceptedTimerEventCompletes : Invariants freezing ∧ freezing.tickEn = true :=
  ⟨witness_invariants_freeze, by decide⟩
theorem witness_EveryAudioTickTogglesPhase :
    after (exec (TickOp.instr .recOdd) recordingLast) State.phase = some false ∧
      after (exec .ctick recordingLast) State.phase = some true := by decide
theorem witness_PassthroughTickMovesInputToMix : Instr.atOff = .atOff ∧ Instr.atPass = .atPass := by decide
theorem witness_EvenTicks : playing.phase = false ∧ { recordingOdd with phase := false }.phase = false := by decide
/-- The lowest base with the record that stays, and the last record of an ascending slot. -/
theorem witness_OddRecordTickWritesOneRecord :
    recordingOdd.mode = .record ∧ recordingOdd.phase = true ∧
      recordBase recordingOdd.slot recordingOdd.wcur.toInt = 0 ∧
      recordBase recordingLast.slot recordingLast.wcur.toInt = 65532 ∧
      distOf .slot0 65535 > 65533 ∧ distOf .slot0 65532 ≤ 65533 ∧ recordBase .slot1 65535 = 65533 := by decide
theorem witness_EvenPlaybackTickReadsAndAdvances :
    playing.phase = false ∧ 0 ≤ recordBase playing.slot playing.pcur.toInt ∧
      recordBase playing.slot playing.pcur.toInt ≤ 65533 := by decide
theorem witness_OddPlaybackTickPlaysTheSecondSample : { playing with phase := true }.phase = true := by decide
/-- A closing and a continuing window. -/
theorem witness_SubstitutedTickPlaysTheGrain :
    graining.phase = false ∧ recordBase graining.slot graining.pcur.toInt = 6 ∧
      recordBase graining.slot (grainPosOf graining graining.slot) = 9 ∧ graining.spg ≤ graining.gcnt + 1#24 ∧
      ¬({ graining with gcnt := 2 }.spg ≤ { graining with gcnt := 2 }.gcnt + 1#24) := by decide
theorem witness_GrainStepReadsAndCounts :
    recordBase .slot0 (grainPosOf freezing .slot0) = 27 ∧ freezing.spg ≤ freezing.gcnt + 1#24 ∧
      ¬({ freezing with gcnt := 0 }.spg ≤ { freezing with gcnt := 0 }.gcnt + 1#24) := by decide
theorem witness_FilterChainFollowsTheStageEquations :
    (1 ≤ { playing with bitres := 1 }.bitres.toNat) ∧ playing.bitres.toNat = 12 := by decide
theorem witness_MaskPreservesTheTopBits : 1 ≤ 1 ∧ 12 ≤ 12 ∧ bitMask 1 = 0x800 ∧ bitMask 12 = 0xFFF := by decide
theorem witness_ClampIsExactOutsideAndIdentityInside :
    (-2049 : Int) < -2048 ∧ (2048 : Int) > 2047 ∧ (-2048 : Int) ≤ -2048 ∧ (2047 : Int) ≤ 2047 := by decide
theorem witness_PackedSamplesRoundTrip :
    (Instr.mapSw .slot0 65533 0xABC 0xDEF).wellFormed = true ∧
      memWf Config.devBytes (deviceOf graining (chipOf .slot0)) = true := by decide
theorem witness_MappedWriteChangesOneRecord :
    recordBase .slot0 (65533#25).toInt = 65533 ∧ recordBase .slot3 (2#25).toInt = 0 := by decide
theorem witness_OutOfRangeRecordBaseIsRefused :
    65533 < recordBase .slot0 (65534#25).toInt ∧ recordBase .slot1 (1#25).toInt < 0 ∧
      65533 < recordBase { recordingLast with wcur := 65534 }.slot { recordingLast with wcur := 65534 }.wcur.toInt ∧
      recordBase { playing with pcur := -1 }.slot { playing with pcur := -1 }.pcur.toInt < 0 := by decide
/-- The boundary bases 65534 and -1 of a grain read; the normal read of the same state is in range. -/
theorem witness_OutOfRangeGrainPositionIsRefused :
    (let s := { graining with endAddr := ⟨0xFFFFFF, 0, 0, 0⟩, gaddr := 65534, gcnt := 0 }
     recordBase s.slot (grainPosOf s s.slot) = 65534 ∧ baseInRange (recordBase s.slot s.pcur.toInt) = true) ∧
    (let s := { graining with slot := .slot1, gaddr := 1, gcnt := 0, pcur := 65535 }
     recordBase s.slot (grainPosOf s s.slot) = -1 ∧ baseInRange (recordBase s.slot s.pcur.toInt) = true) := by decide
/-- R185's comparisons at the boundary and one record before it. -/
theorem witness_AddressTupleOfEverySlot :
    passed .slot0 false 30 30 = true ∧ passed .slot0 false 30 27 = false ∧ passed .slot3 false 65505 65505 = true ∧
      passed .slot3 true 65505 65535 = true ∧ passed .slot3 true 65505 65532 = false := by decide
/-- Every clause at its boundary: an empty slot, the fold at either end, the hop short of and at the boundary, to the
anchor (P4 word 27), to the start forward and in reverse. -/
theorem witness_GrainWindowFoldsAndHops :
    (let e := { State.reset with dir := true, gaddr := 65535, gcnt := 5, endAddr := ⟨0, 65535, 0, 0⟩ }
     grainPosOf e .slot1 = 65535 ∧ grainNextOf e .slot1 = 65535) ∧
      grainPosOf { graining with gaddr := 27, gcnt := 1 } .slot0 = 0 ∧
      grainPosOf { graining with dir := true, gaddr := 0, gcnt := 1 } .slot0 = 27 ∧
      grainNextOf { graining with gaddr := 21 } .slot0 = 27 ∧ grainNextOf freezing .slot0 = 21 ∧
      grainNextOf { graining with gaddr := 24 } .slot0 = 0 ∧
      grainNextOf { graining with dir := true, gaddr := 6 } .slot0 = 27 := by decide
/-- An empty slot, a full one, and their last cursors. -/
theorem witness_ReadCursorsStayValid :
    ValidEnd .slot0 0 ∧ ValidEnd .slot1 0 ∧ ValidReadCursor .slot1 0 3 ∧ ValidEnd .slot0 65535 ∧
      ValidReadCursor .slot0 65535 65532 ∧ ValidWriteCursor .slot1 3 ∧ extent .slot3 65535 = 0 := by decide
theorem witness_GrainCursorsStayValid :
    ValidEnd .slot1 65505 ∧ ValidReadCursor .slot1 65505 65508 ∧ ValidReadCursor .slot1 65505 65535 := by decide
theorem witness_PlaybackLoopCloses :
    distOf .slot0 3 = 3 * (1 : Nat) ∧ distOf .slot1 0 = 3 * (21845 : Nat) ∧ 3 * 21845 ≤ 65535 := by decide
theorem witness_OverflowExactlyAtTheBoundary :
    ValidWriteCursor .slot0 65532 ∧ distOf .slot0 65532 = 65532 ∧ ValidWriteCursor .slot1 3 ∧
      distOf .slot1 3 = 65532 ∧ ValidWriteCursor .slot2 0 := by decide
theorem witness_AliasedSlotsShareBytes :
    memWf Config.devBytes (deviceOf graining (chipOf .slot0)) = true ∧
      after (exec (.mapSw .slot0 0 0xABC 0xDEF) graining) (fun t => memRead t.storeA 0) = some 0xAB ∧
      after (exec (.mapSw .slot3 65535 0xABC 0xDEF) graining) (fun t => memRead t.storeB 65535) = some 0xEF := by decide
/-- V21 and V22: each row of the selection has a state. -/
theorem witness_TransitionSelectionFollowsTheTable :
    (let chosen := fun s : State => selectTransition (sideConds s) (controlFields s)
     chosen { passing with gest := 0x03, msNow := 20 } = .recStart .slot0 ∧
     chosen { passing with gest := 0x03, msNow := 19 } = .playStart .slot0 ∧
     chosen { passing with gest := 0x03, freeSpace := [false] } = .playStart .slot0 ∧
     chosen { passing with gest := 0x0C } = .playStart .slot2 ∧
     chosen { passing with gest := 0x04 } = .none ∧
     chosen { recordingOdd with gest := 0x01, msNow := 120 } = .recStop ∧
     chosen { recordingOdd with gest := 0x01, msNow := 119 } = .none ∧
     chosen recordDone = .recAck ∧ chosen { recordDone with gest := 0x81 } = .none ∧
     chosen { playing with gest := 0x04 } = .playStop ∧ chosen playing = .none ∧
     chosen { passing with gest := 0x03, tRecEnd := 0xFFFFF0, msNow := 4 } = .recStart .slot0) := by decide
theorem witness_RecordStartSeedsTheWriteCursor :
    { passing with tRecEnd := 0, msNow := 19 }.tRecEnd = 0#24 ∧
      { passing with tRecEnd := 0, msNow := 19 }.msNow.toNat < 20 := by decide
theorem witness_CommitPersistsTheBoundary :
    0 ≤ recordDone.wcur.toInt ∧ memWf Config.nvOffsets { recordDone with nv := [(4, 7), (15, 1)] }.nv = true := by decide
theorem witness_PlayStartSeedsTheCursors :
    playing.dir = false ∧
      ({ playing with dir := true }.dir = true ∧ endOf { playing with dir := true } .slot1 ≠ origin .slot1) ∧
      endOf { playing with dir := true } .slot2 = origin .slot2 := by decide
theorem witness_ModifiersAreLatched :
    freezeWanted { freezing with freezeAct := false } = true ∧ { freezing with freezeAct := false }.freezeAct = false ∧
      ¬(freezeWanted freezing = true ∧ freezing.freezeAct = false) := by decide
theorem witness_TickRateFollowsRateByMode :
    passing.mode = .passthrough ∧ playing.mode = .playback ∧ State.reset.mode = .off ∧
      recordingOdd.mode = .record ∧ recordDone.mode = .recordDone := by decide
/-- The three ways `MODE` may end a step: unchanged, along a transition, at a reset. -/
theorem witness_ModeChangesOnlyAlongTransitions :
    after (step playing) State.mode = some .playback ∧
      after (step { recordingLast with stim := [0x40000222] }) State.mode = some .recordDone ∧
      after (step { playing with stim := [0xC0000000] }) State.mode = some .off := by decide
theorem witness_steps_without_reset :
    after (step { playing with stim := [0x8F000001] }) (fun t => t.recorded.slot0) = some true ∧
      decodeStim 0x8F000001 ≠ .reset ∧ slotGet playing.recorded .slot0 = true ∧
      after (step { recordDone with stim := [0x8F000001] }) (fun t => (t.endAddr.slot0, t.nv)) =
        some (65535, [(1, 0xFF), (2, 0xFF)]) ∧ recordDone.nv = [] := by decide
theorem witness_DevicesChangeOnlyByRecording :
    after (step { recordingOdd with stim := [0x40000222] }) (fun t => memRead t.storeA 2) = some 0x22 ∧
      memRead recordingOdd.storeA 2 = 0 := by decide
theorem witness_HostWritesTouchOnlyHostRegisters :
    after (exec (.hwr 0x0F 2) playing) State.mode = some .playback ∧
      after (exec (.hwr 0x00 1) playing) State.tickEn = some true ∧ playing.tickPend = false := by decide
theorem witness_FullDescendingSlotReloadsUnrecorded :
    ({ recordDone with slot := .slot1, wcur := 0 }.slot = .slot1 ∧ { recordDone with slot := .slot1, wcur := 0 }.wcur = 0#25) ∧
      memWf Config.nvOffsets { recordDone with slot := .slot1, wcur := 0 }.nv = true := by decide
theorem witness_OneGrainWindowMovesTheStartOnce :
    Invariants { graining with gcnt := 0 } ∧ graining.mode = .playback ∧ graining.dir = false ∧
      distOf .slot0 graining.gaddr.toInt + 3 * 2 < extent .slot0 30 :=
  ⟨by constructor <;> first | decide | (intro k; cases k <;> decide), by decide, by decide, by decide⟩

end Sys2Proof.Tests
end

section
/-! PROOFS. The clamp of R9: one equation for each of its three ranges, and the obligation of family `00_scope.md`
assembled from them. -/

namespace Sys2Proof.Proofs

open Sys2Proof.Machine

/-- R9, below the range: the first branch of `clamp12`. -/
theorem clamp12_of_lt {x : Int} (hlow : x < -2048) : clamp12 x = -2048 :=
  if_pos hlow

/-- R9, above the range: the first test fails there, the second holds. -/
theorem clamp12_of_gt {x : Int} (hhigh : 2047 < x) : clamp12 x = 2047 := by
  have hlow : ¬ x < -2048 := by omega
  exact (if_neg hlow).trans (if_pos hhigh)

/-- R9, inside the range, both bounds included: both tests fail. -/
theorem clamp12_of_mem {x : Int} (hmin : -2048 ≤ x) (hmax : x ≤ 2047) : clamp12 x = x :=
  (if_neg hmin.not_gt).trans (if_neg hmax.not_gt)

/-- Settles O33, from the equation of each range. -/
theorem clampIsExactOutsideAndIdentityInside : Obligations.ClampIsExactOutsideAndIdentityInside := fun _ =>
  ⟨clamp12_of_lt, clamp12_of_gt, fun ⟨hmin, hmax⟩ => clamp12_of_mem hmin hmax⟩

end Sys2Proof.Proofs
end

section
/-! PROOFS. Joined bit fields, and the boundary store as a memory of three-byte boundaries (R75, R102). -/

namespace Sys2Proof.Proofs

open Sys2Proof.Machine

/-- R8: the value of two fields joined. -/
theorem toNat_append_eq {m n : Nat} (x : BitVec m) (y : BitVec n) : (x ++ y).toNat = x.toNat * 2 ^ n + y.toNat := by
  rw [BitVec.toNat_append, ← Nat.shiftLeft_add_eq_or_of_lt y.isLt, Nat.shiftLeft_eq]

/-- R75: the three bytes of a boundary, most significant first, make it up. -/
theorem append_bytes_eq (e : Word24) : e.extractLsb' 16 8 ++ e.extractLsb' 8 8 ++ e.extractLsb' 0 8 = e := by
  apply BitVec.eq_of_toNat_eq
  simp only [toNat_append_eq, BitVec.extractLsb'_toNat, Nat.shiftRight_eq_div_pow]
  omega

/-! ### The boundary store -/

/-- The boundary a boundary store holds for a slot (R75, R102). -/
def boundaryAt (m : Memory) (k : SlotId) : Word24 :=
  memRead m (3 * slotNumber k) ++ memRead m (3 * slotNumber k + 1) ++ memRead m (3 * slotNumber k + 2)

theorem storedEnd_eq (s : State) (k : SlotId) : storedEnd s k = boundaryAt s.nv k := rfl

/-- The boundary store with a slot's boundary written (R75, R102). -/
def writeBoundary (m : Memory) (k : SlotId) (e : Word24) : Memory :=
  memWrite (memWrite (memWrite m (3 * slotNumber k) (e.extractLsb' 16 8)) (3 * slotNumber k + 1) (e.extractLsb' 8 8))
    (3 * slotNumber k + 2) (e.extractLsb' 0 8)

theorem persistEnd_nv (k : SlotId) (s : State) :
    (persistEnd k s).nv = writeBoundary s.nv k (slotGet s.endAddr k) := rfl

theorem commit_nv (s : State) : (commit s).nv = writeBoundary s.nv s.slot (s.wcur.setWidth 24) := by
  simp [commit, persistEnd_nv]

theorem boundary_in_nvOffsets (k : SlotId) : 3 * slotNumber k + 2 < Config.nvOffsets := by cases k <;> decide

theorem writeBoundary_memWf {m : Memory} (h : memWf Config.nvOffsets m = true) (k : SlotId) (e : Word24) :
    memWf Config.nvOffsets (writeBoundary m k e) = true := by
  have hin := boundary_in_nvOffsets k
  exact memWf_memWrite hin _ (memWf_memWrite (by omega) _ (memWf_memWrite (by omega) _ h))

/-- A boundary read back from where it was written. -/
theorem boundaryAt_writeBoundary_same {m : Memory} (h : memWf Config.nvOffsets m = true) (k : SlotId) (e : Word24) :
    boundaryAt (writeBoundary m k e) k = e := by
  have hin := boundary_in_nvOffsets k
  have h1 := memWf_memWrite (a := 3 * slotNumber k) (by omega) (e.extractLsb' 16 8) h
  have h2 := memWf_memWrite (a := 3 * slotNumber k + 1) (by omega) (e.extractLsb' 8 8) h1
  unfold boundaryAt writeBoundary
  rw [memRead_memWrite_other (by omega), memRead_memWrite_other (by omega), memRead_memWrite_same _ h,
    memRead_memWrite_other (by omega), memRead_memWrite_same _ h1, memRead_memWrite_same _ h2]
  exact append_bytes_eq e

theorem memRead_writeBoundary_other {a : Nat} {k : SlotId} (h : a < 3 * slotNumber k ∨ 3 * slotNumber k + 2 < a)
    (m : Memory) (e : Word24) : memRead (writeBoundary m k e) a = memRead m a := by
  unfold writeBoundary
  rw [memRead_memWrite_other (by omega), memRead_memWrite_other (by omega), memRead_memWrite_other (by omega)]

/-- Writing a slot's boundary leaves the other slots' alone. -/
theorem boundaryAt_writeBoundary_other {j k : SlotId} (hne : j ≠ k) (m : Memory) (e : Word24) :
    boundaryAt (writeBoundary m k e) j = boundaryAt m j := by
  have hapart : slotNumber j ≠ slotNumber k := by
    revert hne
    cases j <;> cases k <;> decide
  unfold boundaryAt
  rw [memRead_writeBoundary_other (by omega), memRead_writeBoundary_other (by omega),
    memRead_writeBoundary_other (by omega)]

end Sys2Proof.Proofs
end

section
/-! PROOFS. The address mapper in distances from a slot's origin (R171 to R175, R183, R202): what an advance, a start and
a wrap do to the distance, and that they keep valid cursors valid. -/

namespace Sys2Proof.Proofs

open Sys2Proof.Machine

@[simp] theorem distOf_origin (k : SlotId) : distOf k (origin k) = 0 := by simp [distOf]

/-- R172: an advance by `d` in the direction of the slot moves the distance by `d`. -/
@[simp] theorem distOf_add_sigma_mul (k : SlotId) (c d : Int) : distOf k (c + sigma k * d) = distOf k c + d := by
  rcases sigma_eq k with h | h <;> simp only [distOf, h] <;> ring

theorem extent_eq_zero_iff (k : SlotId) (e : Int) : extent k e = 0 ↔ e = origin k := by
  rcases sigma_eq k with h | h <;> simp only [extent, distOf, h] <;> omega

/-- R173, in distances. -/
theorem distOf_startOffset (k : SlotId) (rev : Bool) (e : Int) :
    distOf k (startOffset k rev e) = if rev = false ∨ extent k e = 0 then 0 else extent k e - 3 := by
  have hback : e - sigma k * Config.stride = e + sigma k * (-3) := by simp only [Config.stride]; ring
  cases rev
  · simp [startOffset]
  · by_cases he : e = origin k
    · simp [startOffset, he, extent]
    · simp only [startOffset, extent_eq_zero_iff, he, hback, Bool.true_eq_false, or_false, if_false,
        distOf_add_sigma_mul]
      rfl

/-- R175, in distances. -/
theorem passed_iff (k : SlotId) (rev : Bool) (e c : Int) :
    passed k rev e c = true ↔ (rev = false ∧ extent k e ≤ distOf k c) ∨ (rev = true ∧ distOf k c ≤ 0) := by
  cases rev <;> simp [passed]

/-- R183: a start is a valid cursor of every slot with a valid boundary. -/
theorem startOffset_valid {k : SlotId} {e : Int} (he : ValidEnd k e) (rev : Bool) :
    ValidReadCursor k e (startOffset k rev e) := by
  obtain ⟨hnonneg, -, hthree⟩ := he
  have hstart := distOf_startOffset k rev e
  have hextent : extent k e = distOf k e := rfl
  split at hstart <;> simp only [ValidReadCursor] <;> omega

/-- R183: the advance and wrap of a playback tick keep a read cursor valid, in both directions. -/
theorem wrapCursor_effStep_valid {k : SlotId} {e c : Int} (he : ValidEnd k e) (rev : Bool)
    (hc : ValidReadCursor k e c) : ValidReadCursor k e (wrapCursor k rev e (c + effStep k rev)) := by
  unfold wrapCursor
  split
  · exact startOffset_valid he rev
  · next hin =>
    obtain ⟨hnonneg, hbelow, hthree⟩ := hc
    have hdist : distOf k (c + effStep k rev) = distOf k c + dirSign rev * 3 := distOf_add_sigma_mul k c _
    rw [passed_iff] at hin
    cases rev <;> simp [dirSign] at hin hdist ⊢ <;> omega

/-- R183, R202: the next window start is a valid read cursor, in both directions and with either re-seed. -/
theorem grainNext_valid {k : SlotId} {e g : Int} (he : ValidEnd k e) (rev : Bool) (size : Nat) {anchor : Option Int}
    (hg : ValidReadCursor k e g) (ha : ∀ a, anchor = some a → ValidReadCursor k e a) :
    ValidReadCursor k e (grainNext k rev e g size anchor) := by
  have hdist : distOf k (g + sigma k * dirSign rev * Config.stride * size) =
      distOf k g + dirSign rev * 3 * size := by
    rw [← distOf_add_sigma_mul, Config.stride]
    congr 1; ring
  simp only [grainNext]
  split
  · cases anchor with
    | none => exact startOffset_valid he rev
    | some a => exact ha a rfl
  · next hin =>
    obtain ⟨hnonneg, hbelow, hthree⟩ := hg
    rw [passed_iff, hdist] at hin
    simp only [ValidReadCursor, hdist]
    cases rev <;> simp [dirSign] at hin ⊢ <;> omega

/-- R22, R71: what is at a distance in 0 to 65535 from the origin is an offset of the device. -/
theorem offset_of_dist {k : SlotId} {c : Int} (h0 : 0 ≤ distOf k c) (h1 : distOf k c ≤ 65535) :
    0 ≤ c ∧ c ≤ 65535 := by
  cases k <;> simp only [distOf, sigma, origin, Config.devTop] at h0 h1 <;> omega

/-- A cursor inside the device survives the write to its register. -/
theorem toCursor_toInt_of_dist {k : SlotId} {c : Int} (h0 : 0 ≤ distOf k c) (h1 : distOf k c ≤ 65535) :
    (toCursor c).toInt = c := by
  obtain ⟨hlow, hhigh⟩ := offset_of_dist h0 h1
  exact toCursor_toInt (by omega) (by omega)

/-- A valid read cursor survives the write to its register. -/
theorem toCursor_valid {k : SlotId} {e c : Int} (he : ValidEnd k e) (hc : ValidReadCursor k e c) :
    ValidReadCursor k e (toCursor c).toInt := by
  have htop : extent k e ≤ 65535 := he.2.1
  have hbelow := hc.2.1
  rwa [toCursor_toInt_of_dist (k := k) hc.1 (by omega)]

/-- R9: `sat` ends in its range. -/
theorem sat_mem {lo hi : Nat} (h : lo ≤ hi) (x : Nat) : lo ≤ sat x lo hi ∧ sat x lo hi ≤ hi := by
  unfold sat
  split_ifs <;> omega

/-- R208: `SPGcalc` fits its register and is never 0. -/
theorem spgCalc_mem (stretch size rate recRate : Nat) :
    1 ≤ spgCalc stretch size rate recRate ∧ spgCalc stretch size rate recRate ≤ 16777215 :=
  sat_mem (by decide) _

end Sys2Proof.Proofs
end

section
/-! PROOFS. The table of R185: the mapper's quantities of every slot, from those of its orientation and origin. -/

namespace Sys2Proof.Proofs

open Sys2Proof.Machine

/-- R22, R176, R185: an ascending slot. -/
theorem addressTuple_ascending {k : SlotId} (hs : sigma k = 1) (ho : origin k = 0) (e c : Int) :
    recordBase k c = c ∧ startOffset k false e = 0 ∧ resetOffset k false e = e ∧ effStep k false = 3 ∧
      (passed k false e c = true ↔ c ≥ e) ∧
      startOffset k true e = (if e = 0 then 0 else e - 3) ∧ resetOffset k true e = 0 ∧ effStep k true = -3 ∧
      (passed k true e c = true ↔ c ≤ 0) := by
  have hdist (x : Int) : distOf k x = x := by simp [distOf, hs, ho]
  refine ⟨by simp [recordBase, hs], by simp [startOffset, ho], rfl, by simp [effStep, dirSign, hs], ?_,
    by simp [startOffset, hs, ho], by simp [resetOffset, ho], by simp [effStep, dirSign, hs], ?_⟩
  · simp [passed_iff, extent, hdist]
  · simp [passed_iff, hdist]

/-- R22, R176, R185: a descending slot. -/
theorem addressTuple_descending {k : SlotId} (hs : sigma k = -1) (ho : origin k = 65535) (e c : Int) :
    recordBase k c = c - 2 ∧ startOffset k false e = 65535 ∧ resetOffset k false e = e ∧ effStep k false = -3 ∧
      (passed k false e c = true ↔ c ≤ e) ∧
      startOffset k true e = (if e = 65535 then 65535 else e + 3) ∧ resetOffset k true e = 65535 ∧
      effStep k true = 3 ∧ (passed k true e c = true ↔ c ≥ 65535) := by
  have hdist (x : Int) : distOf k x = 65535 - x := by simp [distOf, hs, ho]
  refine ⟨by simp [recordBase, hs], by simp [startOffset, ho], rfl, by simp [effStep, dirSign, hs], ?_,
    by simp [startOffset, hs, ho], by simp [resetOffset, ho], by simp [effStep, dirSign, hs], ?_⟩
  · simp only [passed_iff, extent, hdist, true_and, false_and, or_false, reduceCtorEq]
    omega
  · simp only [passed_iff, hdist, true_and, false_and, false_or, reduceCtorEq]
    omega

/-- Settles O59: slots 0 and 2 ascend from 0 on A, slots 1 and 3 descend from 65535 on B. -/
theorem addressTupleOfEverySlot : Obligations.AddressTupleOfEverySlot := by
  refine fun e c => ⟨?_, ?_⟩
  · rintro k (rfl | rfl)
    · exact ⟨rfl, rfl, rfl, addressTuple_ascending rfl rfl e c⟩
    · exact ⟨rfl, rfl, rfl, addressTuple_ascending rfl rfl e c⟩
  · rintro k (rfl | rfl)
    · exact ⟨rfl, rfl, rfl, addressTuple_descending rfl rfl e c⟩
    · exact ⟨rfl, rfl, rfl, addressTuple_descending rfl rfl e c⟩

end Sys2Proof.Proofs
end

section
/-! PROOFS. What one step can do, said once: an audio tick, a control tick's transition, a stimulus word. Every rule
about the whole machine is derived from these inversions. -/

namespace Sys2Proof.Proofs

open Sys2Proof.Machine

/-! ### The audio tick -/

/-- The next states of an audio tick, one constructor for each way its data moves (R257 to R265). -/
inductive TickEffect (s : State) : State → Prop where
  | pass : TickEffect s (finishTick (passInput s))
  | recEven : TickEffect s (finishTick { passInput s with rbuf := (passInput s).inSample })
  | recOdd {u : State} (mode : s.mode = .record) (pair : recordPair (passInput s) = some u) :
      TickEffect s (finishTick u)
  | done : TickEffect s (finishTick (beginTick s))
  | playEven {u : State} (read : readAndSample (emitOutput (beginTick s)) = some u) :
      TickEffect s (finishTick (advancePlay (mixStored u.d0 u)))
  | playOdd (d : Sample) : TickEffect s (finishTick (mixStored d (sampleInput (emitOutput (beginTick s)))))
  | substituted {u : State} (grain : playSubstituted s = some u) : TickEffect s (finishTick u)

/-- R108: the odd record operation is selected in RECORD alone. -/
theorem mode_of_selectTick_recOdd {f : TickFields} (h : selectTick f = .recOdd) : f.mode = .record := by
  cases hm : f.mode with
  | record => rfl
  | off => simp [selectTick, hm] at h
  | passthrough => simp [selectTick, hm] at h
  | recordDone => simp [selectTick, hm] at h
  | playback => simp only [selectTick, hm] at h; split_ifs at h

theorem audioTick_effect {s t : State} (h : audioTick s = .next t) : TickEffect s t := by
  unfold audioTick at h
  cases hop : selectTick (tickFields s) <;> rw [hop] at h
  case off => cases h; exact .pass
  case pass => cases h; exact .pass
  case recEven => cases h; exact .recEven
  case recOdd =>
    obtain ⟨u, hpair, rfl⟩ := Option.map_eq_some_iff.1 ((outcomeOf_eq_next _ _).1 h)
    exact .recOdd (mode_of_selectTick_recOdd hop) hpair
  case done => cases h; exact .done
  case playEven =>
    obtain ⟨u, hread, rfl⟩ := Option.map_eq_some_iff.1 ((outcomeOf_eq_next _ _).1 h)
    exact .playEven hread
  case playOdd => cases h; exact .playOdd _
  case playGrain =>
    obtain ⟨u, hgrain, rfl⟩ := Option.map_eq_some_iff.1 ((outcomeOf_eq_next _ _).1 h)
    exact .substituted hgrain
  case playFreeze =>
    obtain ⟨u, hgrain, rfl⟩ := Option.map_eq_some_iff.1 ((outcomeOf_eq_next _ _).1 h)
    exact .substituted hgrain

/-! ### The transition of a control tick -/

/-- From which modes step K3 chooses a transition (R143). -/
inductive ChosenIn : Mode → Transition → Prop where
  | recStart {m : Mode} (idle : m = .off ∨ m = .passthrough) (k : SlotId) : ChosenIn m (.recStart k)
  | playStart {m : Mode} (idle : m = .off ∨ m = .passthrough) (k : SlotId) : ChosenIn m (.playStart k)
  | recStop : ChosenIn .record .recStop
  | recAck : ChosenIn .recordDone .recAck
  | playStop : ChosenIn .playback .playStop
  | none (m : Mode) : ChosenIn m .none

theorem selectTransition_chosenIn (c : SideConds) (f : ControlFields) : ChosenIn f.mode (selectTransition c f) := by
  unfold selectTransition
  split
  next hm => split; exacts [.recStart (.inl hm) _, by split; exacts [.playStart (.inl hm) _, .none _]]
  next hm => split; exacts [.recStart (.inr hm) _, by split; exacts [.playStart (.inr hm) _, .none _]]
  next hm => rw [hm]; split_ifs; exacts [.recStop, .none _]
  next hm => rw [hm]; split_ifs; exacts [.recAck, .none _]
  next hm => rw [hm]; split_ifs; exacts [.playStop, .none _]

/-- Step K3 runs a transition its mode allows and takes one free-space sample (R143, R155). -/
theorem stepK3_chosen (s : State) : ∃ tr, ChosenIn s.mode tr ∧
    stepK3 s = { runTransition tr s with freeSpace := s.freeSpace.tail } :=
  ⟨_, selectTransition_chosenIn (sideConds s) (controlFields s), rfl⟩

/-! ### The stimulus words -/

/-- The next states of a stimulus word other than RESET (R290 to R296). -/
inductive StimEffect (s : State) : State → Prop where
  | hostRead (e : PortEvent) : StimEffect s (logEvent s e)
  | hostWrite (r : HostReg) (d : Word24) : StimEffect s (writeParam r d s)
  | ctrlBits {en : Bool} (clr : Bool) (noRelease : ¬(en = true ∧ s.tickPend = true)) :
      StimEffect s { s with ovr := s.ovr && !clr, tickEn := en }
  | release {t : State} (clr : Bool)
      (tick : audioTick { s with ovr := s.ovr && !clr, tickEn := true, tickPend := false } = .next t) :
      StimEffect s t
  | held (a : Sample) (disabled : s.tickEn = false) : StimEffect s (holdTimerEvent { s with ain := a })
  | accepted {t : State} (a : Sample) (tick : audioTick { s with ain := a } = .next t) : StimEffect s t
  | control : StimEffect s (controlTick s)

theorem writeCtrl_effect {en clr : Bool} {s t : State} (h : writeCtrl en clr s = .next t) : StimEffect s t := by
  rcases writeCtrl_cases en clr s with ⟨-, -, heq⟩ | ⟨hno, heq⟩ <;> rw [heq] at h
  · exact .release clr h
  · cases h; exact .ctrlBits clr hno

theorem timerEvent_effect {a : Sample} {s t : State} (h : execAtick a s = .next t) : StimEffect s t := by
  rcases timerEvent_cases { s with ain := a } with ⟨-, heq⟩ | ⟨hoff, heq⟩ <;> rw [execAtick, heq] at h
  · exact .accepted a h
  · cases h; exact .held a hoff

/-- R41: a number names the register that has it. -/
theorem hostRegOfNumber_eq_some (n : RegNumber) (r : HostReg) : hostRegOfNumber n = some r ↔ n = hostRegNumber r where
  mp h := (eq_of_beq (List.find?_some (p := fun r => hostRegNumber r == n) h)).symm
  mpr h := by subst h; cases r <;> rfl

/-- R292, R293, R296: a general host write is the write to `CTRL`, the control-tick request, or stores a value. -/
theorem execHwr_cases (reg : RegNumber) (d : Word24) (s : State) :
    (reg = 0x00#6 ∧ execHwr reg d s = writeCtrl (d.getLsbD 0) (d.getLsbD 1) s) ∨
      (reg = 0x0F#6 ∧ d.getLsbD 0 = true ∧ execHwr reg d s = .next (controlTick s)) ∨
      ∃ r, execHwr reg d s = .next (writeParam r d s) := by
  unfold execHwr
  split
  next hr => exact .inl ⟨(hostRegOfNumber_eq_some ..).1 hr, rfl⟩
  next hr =>
    split_ifs with hbit
    · exact .inr (.inl ⟨(hostRegOfNumber_eq_some ..).1 hr, hbit, rfl⟩)
    · exact .inr (.inr ⟨.cmd, rfl⟩)
  next r _ _ _ => exact .inr (.inr ⟨r, rfl⟩)
  next => exact .inr (.inr ⟨.cmd, rfl⟩)

theorem execHwr_effect {reg : RegNumber} {d : Word24} {s t : State} (h : execHwr reg d s = .next t) :
    StimEffect s t := by
  rcases execHwr_cases reg d s with ⟨-, heq⟩ | ⟨-, -, heq⟩ | ⟨r, heq⟩ <;> rw [heq] at h
  · exact writeCtrl_effect h
  · cases h; exact .control
  · cases h; exact .hostWrite r d

/-- R104: a decoded word is RESET or has one of the effects above. -/
theorem exec_decodeStim_effect {w : StimWord} {s t : State} (h : exec (decodeStim w) s = .next t) :
    (decodeStim w = .reset ∧ t = resetSequence s) ∨ StimEffect s t := by
  simp only [decodeStim] at h ⊢
  split at h
  · cases h; exact .inr (.hostRead _)
  · exact .inr (timerEvent_effect h)
  · split_ifs at h
    · exact .inr (writeCtrl_effect h)
    · cases h; exact .inr .control
    · exact .inr (execHwr_effect h)
  · cases h; exact .inl ⟨rfl, rfl⟩

/-- R104, R322: all one step can do. -/
theorem step_effect {s t : State} (h : step s = .next t) :
    t = s ∨ ∃ w rest, s.stim = w :: rest ∧
      ((decodeStim w = .reset ∧ t = resetSequence { s with stim := rest }) ∨
        StimEffect { s with stim := rest } t) := by
  cases hstim : s.stim with
  | nil => simp only [step, fetchStim, hstim] at h; cases h; exact .inl rfl
  | cons w rest =>
    simp only [step, fetchStim, hstim] at h
    exact .inr ⟨w, rest, rfl, exec_decodeStim_effect h⟩

end Sys2Proof.Proofs
end

section
/-! PROOFS. The audio tick keeps the invariants of R48: one lemma an operation it is made of. `{ h with … }` names the
clauses that an operation has to prove again; the others are about fields it does not write. -/

namespace Sys2Proof.Proofs

open Sys2Proof.Machine

variable {s t : State}

/-! ### Operations that write no field of the invariants -/

theorem logEvent_keeps (h : Invariants s) (e : PortEvent) : Invariants (logEvent s e) := { h with }

theorem beginTick_keeps (h : Invariants s) : Invariants (beginTick s) := { h with }

theorem emitOutput_keeps (h : Invariants s) : Invariants (emitOutput s) := { h with }

theorem sampleInput_keeps (h : Invariants s) : Invariants (sampleInput s) := { h with }

theorem mixInput_keeps (h : Invariants s) : Invariants (mixInput s) := { h with }

theorem mixStored_keeps (h : Invariants s) (d : Sample) : Invariants (mixStored d s) := { h with }

theorem dspStep_keeps (h : Invariants s) : Invariants (dspStep s) := by
  unfold dspStep
  split
  · exact { h with }
  · exact { h with }

theorem finishTick_keeps (h : Invariants s) : Invariants (finishTick s) := { dspStep_keeps h with }

theorem passInput_keeps (h : Invariants s) : Invariants (passInput s) :=
  mixInput_keeps (sampleInput_keeps (emitOutput_keeps (beginTick_keeps h)))

/-! ### Storage -/

theorem deviceOf_memWf (h : Invariants s) (c : Chip) : memWf Config.devBytes (deviceOf s c) = true := by
  cases c
  · exact h.storeAWf
  · exact h.storeBWf

theorem withDevice_keeps (h : Invariants s) (c : Chip) {m : Memory} (hm : memWf Config.devBytes m = true) :
    Invariants (withDevice s c m) := by
  cases c
  · exact { h with storeAWf := hm }
  · exact { h with storeBWf := hm }

theorem mappedRead_keeps {k : SlotId} {c : Int} {r : (Sample × Sample) × State} (h : Invariants s)
    (hr : mappedRead s k c = some r) : Invariants r.2 := by
  obtain ⟨-, -, hlog⟩ := (mappedRead_eq_some ..).1 hr
  exact hlog ▸ logEvent_keeps h _

/-- R72, R181: a mapped write is inside its device, so the device's canonical form stays. -/
theorem mappedWrite_keeps {k : SlotId} {c : Int} {a b : Sample} (h : Invariants s)
    (ht : mappedWrite s k c a b = some t) : Invariants t := by
  obtain ⟨hbase, rfl⟩ := (mappedWrite_eq_some ..).1 ht
  have hin : (recordBase k c).toNat + 2 < Config.devBytes := by
    obtain ⟨hlow, hhigh⟩ : 0 ≤ recordBase k c ∧ recordBase k c ≤ 65533 := of_decide_eq_true hbase
    rw [Config.devBytes]
    omega
  exact logEvent_keeps (withDevice_keeps h _ (memWf_writeRecord hin _ (deviceOf_memWf h _))) _

/-! ### The record tick -/

/-- R48 (ii): under a modifier the mode is PLAYBACK. -/
theorem no_modifier_of_mode_ne (h : Invariants s) (hm : s.mode ≠ .playback) :
    s.grainAct = false ∧ s.freezeAct = false := by
  have hno := mt h.modifierInPlayback hm
  simpa using hno

/-- R253: the advance of the write cursor, in distances. -/
theorem distOf_advanceWrite (h0 : 0 ≤ distOf s.slot s.wcur.toInt) (h1 : distOf s.slot s.wcur.toInt ≤ 65532) :
    distOf s.slot (advanceWrite s).wcur.toInt = distOf s.slot s.wcur.toInt + 3 := by
  have hdist : distOf s.slot (s.wcur.toInt + sigma s.slot * Config.stride) = distOf s.slot s.wcur.toInt + 3 :=
    distOf_add_sigma_mul ..
  have hcursor : (advanceWrite s).wcur.toInt = s.wcur.toInt + sigma s.slot * Config.stride :=
    toCursor_toInt_of_dist (k := s.slot) (by omega) (by omega)
  rw [hcursor, hdist]

/-- R183, R260: the advanced write cursor is a write cursor again, or exhausts the slot at distance 65535. -/
theorem checkOverflow_advanceWrite_keeps (h : Invariants s) (hm : s.mode = .record) :
    Invariants (checkOverflow (advanceWrite s)) := by
  obtain ⟨hnonneg, hle, hthree⟩ := h.recordCursor hm
  have hadvanced := distOf_advanceWrite hnonneg hle
  have hmod := no_modifier_of_mode_ne h (by simp [hm])
  unfold checkOverflow
  split
  next hover =>
    have hfull : 65533 < distOf s.slot (advanceWrite s).wcur.toInt := of_decide_eq_true hover
    exact { h with
      modifierInPlayback := by simp [hmod]
      recordCursor := nofun
      doneCursor := fun _ => by
        show distOf s.slot (advanceWrite s).wcur.toInt = 65535
        omega
      playCursor := nofun
      grainCursor := nofun }
  next hover =>
    have hroom : ¬ 65533 < distOf s.slot (advanceWrite s).wcur.toInt := fun hlt => hover (decide_eq_true hlt)
    exact { h with
      recordCursor := fun _ => by
        show ValidWriteCursor s.slot (advanceWrite s).wcur.toInt
        simp only [ValidWriteCursor]
        omega
      doneCursor := fun hdone => absurd (hm.symm.trans hdone) (by decide) }

theorem recordPair_keeps (h : Invariants s) (hm : s.mode = .record) (ht : recordPair s = some t) :
    Invariants t := by
  obtain ⟨u, hwrite, rfl⟩ := (recordPair_eq_some ..).1 ht
  have hmode : u.mode = s.mode := by
    obtain ⟨-, rfl⟩ := (mappedWrite_eq_some ..).1 hwrite
    simp
  exact checkOverflow_advanceWrite_keeps (mappedWrite_keeps h hwrite) (hmode.trans hm)

/-! ### The playback ticks -/

theorem readAndSample_keeps (h : Invariants s) (ht : readAndSample s = some t) : Invariants t := by
  obtain ⟨r, hread, rfl⟩ := (readAndSample_eq_some ..).1 ht
  have hr := mappedRead_keeps h hread
  exact sampleInput_keeps { hr with }

theorem advancePlay_keeps (h : Invariants s) : Invariants (advancePlay s) :=
  { h with playCursor := fun hm =>
      toCursor_valid (h.endsValid _) (wrapCursor_effStep_valid (h.endsValid _) _ (h.playCursor hm)) }

/-- R202: in PLAYBACK the next window start is a valid read cursor; under freeze the re-seed is `ANCHOR`. -/
theorem grainNextOf_valid (h : Invariants s) (hm : s.mode = .playback) :
    ValidReadCursor s.slot (endOf s s.slot) (grainNextOf s s.slot) := by
  refine grainNext_valid (h.endsValid _) _ _ (h.grainCursor hm) fun a ha => ?_
  split at ha
  · next hfreeze => cases ha; exact h.anchorCursor hfreeze
  · cases ha

theorem countGrain_keeps (h : Invariants s) : Invariants (countGrain s s.slot) := by
  simp only [countGrain]
  split
  · exact { h with grainCursor := fun hm => toCursor_valid (h.endsValid _) (grainNextOf_valid h hm) }
  · exact { h with }

theorem grainStep_keeps (h : Invariants s) (ht : grainStep s s.slot = some t) : Invariants t := by
  obtain ⟨r, hread, rfl⟩ := (grainStep_eq_some ..).1 ht
  have hr := mappedRead_keeps h hread
  have hslot : r.2.slot = s.slot := by
    obtain ⟨-, -, hlog⟩ := (mappedRead_eq_some ..).1 hread
    rw [hlog, logEvent_slot]
  have hstaged : Invariants { r.2 with d0 := r.1.1, d1 := r.1.2, mix := BitVec.ofInt 12 (signal r.1.1) } := { hr with }
  have hcount := countGrain_keeps hstaged
  rw [← hslot]
  exact { hcount with }

theorem playSubstituted_keeps (h : Invariants s) (ht : playSubstituted s = some t) : Invariants t := by
  obtain ⟨u, hread, hgrain⟩ := (playSubstituted_eq_some ..).1 ht
  exact grainStep_keeps (readAndSample_keeps (emitOutput_keeps (beginTick_keeps h)) hread) hgrain

/-! ### The whole tick -/

theorem audioTick_keeps (h : Invariants s) (ht : audioTick s = .next t) : Invariants t := by
  have hemit := emitOutput_keeps (beginTick_keeps h)
  have hpass := passInput_keeps h
  cases audioTick_effect ht with
  | pass => exact finishTick_keeps hpass
  | recEven => exact finishTick_keeps { hpass with }
  | recOdd hm hpair => exact finishTick_keeps (recordPair_keeps hpass (by simpa using hm) hpair)
  | done => exact finishTick_keeps (beginTick_keeps h)
  | playEven hread =>
    exact finishTick_keeps (advancePlay_keeps (mixStored_keeps (readAndSample_keeps hemit hread) _))
  | playOdd d => exact finishTick_keeps (mixStored_keeps (sampleInput_keeps hemit) d)
  | substituted hgrain => exact finishTick_keeps (playSubstituted_keeps h hgrain)

end Sys2Proof.Proofs
end

section
/-! PROOFS. The control tick keeps the invariants of R48. Between K1 and K4 the modifier bits are stale (the mode and
`DIR` are new), so K1 to K3 are followed on the state with both bits cleared, and K4 latches them again. -/

namespace Sys2Proof.Proofs

open Sys2Proof.Machine

variable {s : State}

/-! ### K1 to K3 with the modifiers cleared -/

/-- The state with both modifier bits cleared: what its invariants say is what the invariants say beside R48 (ii) and
`ANCHOR`. -/
def clearModifiers (s : State) : State := { s with grainAct := false, freezeAct := false }

theorem clearModifiers_keeps (h : Invariants s) : Invariants (clearModifiers s) :=
  { h with
    notBothModifiers := by simp [clearModifiers]
    modifierInPlayback := by simp [clearModifiers]
    freezeForward := nofun
    anchorCursor := nofun }

theorem updateDir_keeps (h : Invariants (clearModifiers s)) : Invariants (clearModifiers (updateDir s)) :=
  { h with freezeForward := nofun }

theorem updateSpg_keeps (h : Invariants (clearModifiers s)) : Invariants (clearModifiers (updateSpg s)) :=
  { h with
    spgPositive := by
      obtain ⟨hlow, hhigh⟩ := spgCalc_mem s.stretch.toNat s.grainSize.toNat s.rate.toNat s.recRate.toNat
      show 1 ≤ (BitVec.ofNat 24 _).toNat
      rw [BitVec.toNat_ofNat, Nat.mod_eq_of_lt (by omega)]
      exact hlow }

theorem startRecord_keeps (h : Invariants (clearModifiers s)) (k : SlotId) :
    Invariants (clearModifiers (startRecord k s)) :=
  have horigin : (toCursor (origin k)).toInt = origin k := toCursor_toInt_of_dist (k := k) (by simp) (by simp)
  { h with
    modifierInPlayback := by simp [clearModifiers]
    recordCursor := fun _ => by
      show ValidWriteCursor k (toCursor (origin k)).toInt
      simp [horigin, ValidWriteCursor]
    doneCursor := nofun
    playCursor := nofun
    grainCursor := nofun
    anchorCursor := nofun
    recRatePositive := h.ratePositive }

theorem startPlay_keeps (h : Invariants (clearModifiers s)) (k : SlotId) :
    Invariants (clearModifiers (startPlay k s)) :=
  have hstart : ValidReadCursor k (endOf s k) (toCursor (startOf s k)).toInt :=
    toCursor_valid (h.endsValid k) (startOffset_valid (h.endsValid k) _)
  { h with
    modifierInPlayback := by simp [clearModifiers]
    recordCursor := nofun
    doneCursor := nofun
    playCursor := fun _ => hstart
    grainCursor := fun _ => hstart
    anchorCursor := nofun }

theorem stopPlay_keeps (h : Invariants (clearModifiers s)) : Invariants (clearModifiers (stopPlay s)) :=
  { h with
    modifierInPlayback := by simp [clearModifiers]
    recordCursor := nofun
    doneCursor := nofun
    playCursor := nofun
    grainCursor := nofun }

/-- A write cursor inside the device is not changed by the truncation to a boundary (R151). -/
theorem setWidth_cursor_toNat {c : Cursor} (h0 : 0 ≤ c.toInt) (h1 : c.toInt ≤ 65535) :
    ((c.setWidth 24).toNat : Int) = c.toInt := by
  rw [BitVec.toNat_setWidth, BitVec.toInt_eq_toNat_cond] at *
  split_ifs at * <;> omega

/-- R48 (iv), R151: what a commit in RECORD or RECORD_DONE makes the boundary is a valid one. -/
theorem validEnd_of_recording (h : Invariants s) (hm : s.mode = .record ∨ s.mode = .recordDone) :
    ValidEnd s.slot ((s.wcur.setWidth 24).toNat : Int) := by
  have hdist : 0 ≤ distOf s.slot s.wcur.toInt ∧ distOf s.slot s.wcur.toInt ≤ 65535 ∧
      distOf s.slot s.wcur.toInt % 3 = 0 := by
    rcases hm with hm | hm
    · obtain ⟨hlow, hhigh, hthree⟩ := h.recordCursor hm
      omega
    · have hfull : distOf s.slot s.wcur.toInt = 65535 := h.doneCursor hm
      omega
  obtain ⟨hlow, hhigh⟩ := offset_of_dist hdist.1 hdist.2.1
  rw [setWidth_cursor_toNat hlow hhigh]
  exact hdist

theorem commit_keeps (h : Invariants (clearModifiers s)) (hm : s.mode = .record ∨ s.mode = .recordDone) :
    Invariants (clearModifiers (commit s)) :=
  have hnew : ValidEnd s.slot ((s.wcur.setWidth 24).toNat : Int) :=
    validEnd_of_recording (s := clearModifiers s) h hm
  have hnv : memWf Config.nvOffsets s.nv = true := h.nvWf
  { h with
    modifierInPlayback := by simp [clearModifiers]
    endsValid := fun j => by
      show ValidEnd j (endOf (commit s) j)
      rw [endOf, commit_endAddr]
      by_cases hj : j = s.slot
      · subst hj; rwa [slotGet_slotSet_same]
      · rw [slotGet_slotSet_other _ hj]; exact h.endsValid j
    nvValid := fun j => by
      show ValidEnd j ((storedEnd (commit s) j).toNat : Int)
      rw [storedEnd_eq, commit_nv]
      by_cases hj : j = s.slot
      · subst hj; rwa [boundaryAt_writeBoundary_same hnv]
      · rw [boundaryAt_writeBoundary_other hj]; exact h.nvValid j
    recordCursor := nofun
    doneCursor := nofun
    playCursor := nofun
    grainCursor := nofun
    anchorCursor := nofun
    nvWf := by
      show memWf Config.nvOffsets (commit s).nv = true
      rw [commit_nv]
      exact writeBoundary_memWf hnv _ _ }

theorem stepK3_keeps (h : Invariants (clearModifiers s)) : Invariants (clearModifiers (stepK3 s)) := by
  obtain ⟨tr, hchosen, heq⟩ := stepK3_chosen s
  suffices hrun : Invariants (clearModifiers (runTransition tr s)) by rw [heq]; exact { hrun with }
  generalize hmode : s.mode = m at hchosen
  cases hchosen with
  | recStart _ k => exact startRecord_keeps h k
  | playStart _ k => exact startPlay_keeps h k
  | recStop => exact commit_keeps h (.inl hmode)
  | recAck => exact commit_keeps h (.inr hmode)
  | playStop => exact stopPlay_keeps h
  | none => exact h

/-! ### K4, K5 and the whole tick -/

/-- R152: freeze is wanted in PLAYBACK, forward, without grain-delay only. -/
theorem freezeWanted_iff (s : State) : freezeWanted s = true ↔
    s.mode = .playback ∧ gestRec s.gest = true ∧ gestRev s.gest = false ∧ gestGrain s.gest = false := by
  simp [freezeWanted, and_assoc]

theorem armFreeze_cases (s : State) :
    (freezeWanted s = true ∧ armFreeze s = { s with anchor := s.pcur, gaddr := s.pcur, gcnt := 0#24 }) ∨
      ((freezeWanted s = true → s.freezeAct = true) ∧ armFreeze s = s) := by
  unfold armFreeze
  split
  next harm => exact .inl ⟨harm.1, rfl⟩
  next harm => exact .inr ⟨by simpa using harm, rfl⟩

/-- R152: arming freeze restarts the grain window at the playback cursor. -/
theorem armFreeze_keeps (h : Invariants (clearModifiers s)) : Invariants (clearModifiers (armFreeze s)) := by
  rcases armFreeze_cases s with ⟨-, heq⟩ | ⟨-, heq⟩ <;> rw [heq]
  · exact { h with
      grainCursor := h.playCursor
      anchorCursor := nofun }
  · exact h

/-- R48 (v), R152: the anchor of a freeze that stays is still valid, and one that starts is anchored at `PCUR`. -/
theorem armFreeze_anchor_valid (h : Invariants (clearModifiers s)) (hwanted : freezeWanted s = true)
    (hold : s.freezeAct = true → ValidReadCursor s.slot (endOf s s.slot) s.anchor.toInt) :
    ValidReadCursor s.slot (endOf s s.slot) (armFreeze s).anchor.toInt := by
  rcases armFreeze_cases s with ⟨-, heq⟩ | ⟨hact, heq⟩ <;> rw [heq]
  · exact h.playCursor ((freezeWanted_iff s).1 hwanted).1
  · exact hold (hact hwanted)

/-- R152, R200: K4 latches the modifiers of the new mode and direction. -/
theorem updateModifiers_keeps (h : Invariants (clearModifiers s)) (hdir : s.dir = gestRev s.gest)
    (hold : s.freezeAct = true → ValidReadCursor s.slot (endOf s s.slot) s.anchor.toInt) :
    Invariants (updateModifiers s) :=
  { armFreeze_keeps h with
    notBothModifiers := by
      simp only [updateModifiers_grainAct, updateModifiers_freezeAct, freezeWanted_iff]
      rintro ⟨hgrain, -, -, -, hno⟩
      simp [hno] at hgrain
    modifierInPlayback := by
      simp only [updateModifiers_grainAct, updateModifiers_freezeAct, updateModifiers_mode, freezeWanted_iff,
        Bool.and_eq_true, decide_eq_true_eq]
      rintro (hgrain | hfreeze)
      · exact hgrain.1
      · exact hfreeze.1
    freezeForward := by
      simp only [updateModifiers_freezeAct, updateModifiers_dir, freezeWanted_iff, hdir]
      exact fun ⟨_, _, hforward, _⟩ => hforward
    anchorCursor := fun hwanted => by
      simp only [endOf, updateModifiers_slot, updateModifiers_endAddr]
      exact armFreeze_anchor_valid h hwanted hold }

theorem updateRate_keeps (h : Invariants s) : Invariants (updateRate s) := by
  unfold updateRate
  split
  · exact { h with }
  · exact h

/-- R154: in PLAYBACK step K3 stays on the slot, whatever it chooses, and moves no boundary. -/
theorem stepK3_of_playback (hm : s.mode = .playback) :
    (stepK3 s).slot = s.slot ∧ (stepK3 s).endAddr = s.endAddr := by
  obtain ⟨tr, hchosen, heq⟩ := stepK3_chosen s
  rw [heq]
  rw [hm] at hchosen
  cases hchosen with
  | recStart idle => simp at idle
  | playStart idle => simp at idle
  | playStop => exact ⟨rfl, rfl⟩
  | none => exact ⟨rfl, rfl⟩

theorem controlTick_keeps (h : Invariants s) : Invariants (controlTick s) := by
  refine updateRate_keeps (updateModifiers_keeps
    (stepK3_keeps (updateSpg_keeps (updateDir_keeps (clearModifiers_keeps h)))) (by simp) fun hfreeze => ?_)
  have hact : s.freezeAct = true := by simpa using hfreeze
  obtain ⟨hslot, hends⟩ := stepK3_of_playback (s := updateSpg (updateDir s)) (h.modifierInPlayback (.inr hact))
  have hanchor := h.anchorCursor hact
  simp only [endOf, hslot, hends, stepK3_anchor]
  exact hanchor

end Sys2Proof.Proofs
end

section
/-! PROOFS. Reset (R45 to R47, R340, R341): the whole next state of the reset event, and the invariants it establishes. -/

namespace Sys2Proof.Proofs

open Sys2Proof.Machine

/-- R75: the value of a boundary in `NV`, most significant byte first. -/
theorem storedEnd_toNat (s : State) (k : SlotId) : (storedEnd s k).toNat =
    65536 * (memRead s.nv (3 * slotNumber k)).toNat + 256 * (memRead s.nv (3 * slotNumber k + 1)).toNat +
      (memRead s.nv (3 * slotNumber k + 2)).toNat := by
  simp only [storedEnd, nvByte, toNat_append_eq]
  omega

/-- R341: the slot table that holds, for every slot, the boundary stored in `NV`. -/
def loadedEnds (s : State) : PerSlot Word24 :=
  ⟨storedEnd s .slot0, storedEnd s .slot1, storedEnd s .slot2, storedEnd s .slot3⟩

/-- R47: the recorded flags that these boundaries give. -/
def loadedFlags (s : State) : PerSlot Bool :=
  ⟨!(storedEnd s .slot0 == 0#24), !(storedEnd s .slot1 == 0#24), !(storedEnd s .slot2 == 0#24),
    !(storedEnd s .slot3 == 0#24)⟩

theorem slotGet_loadedEnds (s : State) (k : SlotId) : slotGet (loadedEnds s) k = storedEnd s k := by cases k <;> rfl

theorem slotGet_loadedFlags (s : State) (k : SlotId) :
    slotGet (loadedFlags s) k = decide ((storedEnd s k).toNat ≠ 0) := by
  have hflag (e : Word24) : (!(e == 0#24)) = decide (e.toNat ≠ 0) := by
    rw [Bool.eq_iff_iff]
    simp [BitVec.toNat_eq]
  cases k <;> exact hflag _

/-- R45, R340: reset clears the registers, loads the boundaries and reads `NV` twelve times, in ascending order. -/
theorem resetSequence_eq (s : State) : resetSequence s =
    { State.reset with
      endAddr := loadedEnds s, recorded := loadedFlags s, storeA := s.storeA, storeB := s.storeB, nv := s.nv
      ain := s.ain, freeSpace := s.freeSpace, stim := s.stim
      trace := s.trace ++ (List.range 12).map fun o => PortEvent.nvRead o (memRead s.nv o) } := by
  have htrace : (resetSequence s).trace =
      s.trace ++ (List.range 12).map fun o => PortEvent.nvRead o (memRead s.nv o) := by
    simp [resetSequence, loadBoundary, slotNumber, nvByte, List.range_succ]
  rw [← htrace]
  rfl

/-- Settles O8, from the whole next state of reset. -/
theorem resetEventSetsEveryRegister : Obligations.ResetEventSetsEveryRegister := by
  intro s
  refine ⟨_, congrArg Host.Outcome.next (resetSequence_eq s), rfl, fun k => ⟨?_, ?_⟩⟩
  · rw [slotGet_loadedEnds, storedEnd_toNat]
  · rw [slotGet_loadedEnds, slotGet_loadedFlags]

/-- Settles O10. -/
theorem resetStateMeetsInvariants : Obligations.ResetStateMeetsInvariants := by
  constructor
  case endsValid => intro k; cases k <;> decide
  case nvValid => intro k; cases k <;> decide
  all_goals decide

/-- R46, R48, R344: what reset establishes beside the invariants of the reset state is about `NV` and the memories. -/
theorem resetSequence_invariants {s : State} (hvalid : ∀ k, ValidEnd k ((storedEnd s k).toNat : Int))
    (hA : memWf Config.devBytes s.storeA = true) (hB : memWf Config.devBytes s.storeB = true)
    (hnv : memWf Config.nvOffsets s.nv = true) : Invariants (resetSequence s) := by
  have hreset : Invariants State.reset := resetStateMeetsInvariants
  rw [resetSequence_eq]
  exact { hreset with
    endsValid := fun k => by
      show ValidEnd k ((slotGet (loadedEnds s) k).toNat : Int)
      rw [slotGet_loadedEnds]
      exact hvalid k
    nvValid := hvalid
    playCursor := nofun
    grainCursor := nofun
    anchorCursor := nofun
    storeAWf := hA
    storeBWf := hB
    nvWf := hnv }

/-- Settles O11. -/
theorem resetEventEstablishesInvariants : Obligations.ResetEventEstablishesInvariants :=
  fun _ hvalid hA hB hnv => ⟨_, rfl, resetSequence_invariants hvalid hA hB hnv⟩

/-- Settles O9: over memories that read 0, the boundaries and flags that reset loads are those of the reset state. -/
theorem resetStateIsResetOfBlankMemories : Obligations.ResetStateIsResetOfBlankMemories := by
  refine ⟨_, congrArg Host.Outcome.next (resetSequence_eq State.reset), ?_⟩
  have hends : loadedEnds State.reset = State.reset.endAddr := by decide
  have hflags : loadedFlags State.reset = State.reset.recorded := by decide
  rw [hends, hflags]
  rfl

end Sys2Proof.Proofs
end

section
/-! PROOFS. Every step keeps the invariants of R48: each effect of a stimulus word does. -/

namespace Sys2Proof.Proofs

open Sys2Proof.Machine

variable {s t : State}

/-- R292: `RATE` and `GRAIN_SIZE` are written as at least 1. -/
theorem legalAtLeastOne_pos (d : Word24) : 1 ≤ (legalAtLeastOne d).toNat := by
  unfold legalAtLeastOne
  split
  · decide
  next hne => exact Nat.one_le_iff_ne_zero.2 fun h0 => hne (BitVec.eq_of_toNat_eq h0)

/-- R292: `BITRES` is written as 1 to 12. -/
theorem legalBitres_mem (d : Word24) : 1 ≤ (legalBitres d).toNat ∧ (legalBitres d).toNat ≤ 12 := by
  simp only [legalBitres, Config.resMin, Config.resMax, BitVec.toNat_ofNat]
  omega

theorem writeParam_keeps (h : Invariants s) (r : HostReg) (d : Word24) : Invariants (writeParam r d s) := by
  cases r
  case rate => exact { h with ratePositive := legalAtLeastOne_pos d }
  case bitres => exact { h with bitresLegal := legalBitres_mem d }
  case grainSize => exact { h with grainSizePositive := legalAtLeastOne_pos d }
  all_goals exact { h with }

theorem stimEffect_keeps (h : Invariants s) (ht : StimEffect s t) : Invariants t := by
  cases ht with
  | hostRead e => exact logEvent_keeps h e
  | hostWrite r d => exact writeParam_keeps h r d
  | ctrlBits clr hno =>
    exact { h with pendingOnlyDisabled := fun hen => Bool.eq_false_iff.2 fun hpend => hno ⟨hen, hpend⟩ }
  | release clr htick =>
    refine audioTick_keeps ?_ htick
    exact { h with pendingOnlyDisabled := fun _ => rfl }
  | held a hoff => exact { h with pendingOnlyDisabled := fun hon => absurd (hoff.symm.trans hon) (by decide) }
  | accepted a htick =>
    refine audioTick_keeps ?_ htick
    exact { h with }
  | control => exact controlTick_keeps h

/-- Settles O12: a step is idle, a reset, or one of the effects of a stimulus word. -/
theorem everyStepKeepsInvariants : Obligations.EveryStepKeepsInvariants := by
  intro s t h ht
  rcases step_effect ht with rfl | ⟨w, rest, -, ⟨-, rfl⟩ | heffect⟩
  · exact h
  · exact resetSequence_invariants h.nvValid h.storeAWf h.storeBWf h.nvWf
  · refine stimEffect_keeps ?_ heffect
    exact { h with }

end Sys2Proof.Proofs
end

section
/-! PROOFS. Boundaries, recorded flags and `NV` outside reset (R21, R77, R151): every effect of a stimulus word leaves
them as they are, except the control tick, and that one changes them only by a commit. -/

namespace Sys2Proof.Proofs

open Sys2Proof.Machine

variable {s t : State}

/-- The boundaries, the recorded flags and the boundary store are as before. -/
structure SameBoundaries (s t : State) : Prop where
  ends : t.endAddr = s.endAddr
  flags : t.recorded = s.recorded
  nv : t.nv = s.nv

/-- What a commit does to the boundaries and the recorded flags (R151). -/
structure Committed (s t : State) : Prop where
  recording : s.mode = .record ∨ s.mode = .recordDone
  mode : t.mode = .passthrough
  ends : t.endAddr = slotSet s.endAddr s.slot (s.wcur.setWidth 24)
  flags : t.recorded = slotSet s.recorded s.slot true

/-! ### The audio tick -/

theorem mappedRead_boundaries {k : SlotId} {c : Int} {r : (Sample × Sample) × State}
    (hr : mappedRead s k c = some r) : SameBoundaries s r.2 := by
  obtain ⟨-, -, hlog⟩ := (mappedRead_eq_some ..).1 hr
  rw [hlog]
  exact ⟨rfl, rfl, rfl⟩

theorem recordPair_boundaries (h : recordPair s = some t) : SameBoundaries s t := by
  obtain ⟨u, hwrite, rfl⟩ := (recordPair_eq_some ..).1 h
  obtain ⟨-, rfl⟩ := (mappedWrite_eq_some ..).1 hwrite
  exact ⟨by simp, by simp, by simp⟩

theorem readAndSample_boundaries (h : readAndSample s = some t) : SameBoundaries s t := by
  obtain ⟨r, hread, rfl⟩ := (readAndSample_eq_some ..).1 h
  obtain ⟨hends, hflags, hnv⟩ := mappedRead_boundaries hread
  exact ⟨hends, hflags, hnv⟩

theorem grainStep_boundaries {k : SlotId} (h : grainStep s k = some t) : SameBoundaries s t := by
  obtain ⟨r, hread, rfl⟩ := (grainStep_eq_some ..).1 h
  obtain ⟨hends, hflags, hnv⟩ := mappedRead_boundaries hread
  exact ⟨by simpa using hends, by simpa using hflags, by simpa using hnv⟩

theorem playSubstituted_boundaries (h : playSubstituted s = some t) : SameBoundaries s t := by
  obtain ⟨u, hread, hgrain⟩ := (playSubstituted_eq_some ..).1 h
  obtain ⟨hends, hflags, hnv⟩ := readAndSample_boundaries hread
  obtain ⟨hends', hflags', hnv'⟩ := grainStep_boundaries hgrain
  exact ⟨hends'.trans hends, hflags'.trans hflags, hnv'.trans hnv⟩

theorem audioTick_boundaries (h : audioTick s = .next t) : SameBoundaries s t := by
  cases audioTick_effect h with
  | pass => exact ⟨by simp, by simp, by simp⟩
  | recEven => exact ⟨by simp, by simp, by simp⟩
  | recOdd _ hpair =>
    obtain ⟨hends, hflags, hnv⟩ := recordPair_boundaries hpair
    exact ⟨by simp [hends], by simp [hflags], by simp [hnv]⟩
  | done => exact ⟨by simp, by simp, by simp⟩
  | playEven hread =>
    obtain ⟨hends, hflags, hnv⟩ := readAndSample_boundaries hread
    exact ⟨by simp [hends], by simp [hflags], by simp [hnv]⟩
  | playOdd => exact ⟨by simp, by simp, by simp⟩
  | substituted hgrain =>
    obtain ⟨hends, hflags, hnv⟩ := playSubstituted_boundaries hgrain
    exact ⟨by simp [hends], by simp [hflags], by simp [hnv]⟩

/-! ### The control tick -/

/-- R143, R151: of the transitions only the two that commit touch the boundaries. -/
theorem stepK3_boundaries (s : State) : SameBoundaries s (stepK3 s) ∨ Committed s (stepK3 s) := by
  obtain ⟨tr, hchosen, heq⟩ := stepK3_chosen s
  rw [heq]
  generalize hmode : s.mode = m at hchosen
  cases hchosen with
  | recStart => exact .inl ⟨rfl, rfl, rfl⟩
  | playStart => exact .inl ⟨rfl, rfl, rfl⟩
  | recStop => exact .inr ⟨.inl hmode, rfl, rfl, rfl⟩
  | recAck => exact .inr ⟨.inr hmode, rfl, rfl, rfl⟩
  | playStop => exact .inl ⟨rfl, rfl, rfl⟩
  | none => exact .inl ⟨rfl, rfl, rfl⟩

theorem controlTick_boundaries (s : State) : SameBoundaries s (controlTick s) ∨ Committed s (controlTick s) := by
  rcases stepK3_boundaries (updateSpg (updateDir s)) with ⟨hends, hflags, hnv⟩ | ⟨hrec, hmode, hends, hflags⟩
  · exact .inl ⟨by simp [controlTick, hends], by simp [controlTick, hflags], by simp [controlTick, hnv]⟩
  · exact .inr ⟨hrec, by simp [controlTick, hmode], by simp [controlTick, hends], by simp [controlTick, hflags]⟩

/-! ### One step -/

theorem writeParam_boundaries (r : HostReg) (d : Word24) (s : State) : SameBoundaries s (writeParam r d s) := by
  cases r <;> exact ⟨rfl, rfl, rfl⟩

theorem stimEffect_boundaries (h : StimEffect s t) : SameBoundaries s t ∨ Committed s t := by
  cases h with
  | hostRead => exact .inl ⟨rfl, rfl, rfl⟩
  | hostWrite r d => exact .inl (writeParam_boundaries r d s)
  | ctrlBits => exact .inl ⟨rfl, rfl, rfl⟩
  | release _ htick =>
    obtain ⟨hends, hflags, hnv⟩ := audioTick_boundaries htick
    exact .inl ⟨hends, hflags, hnv⟩
  | held => exact .inl ⟨rfl, rfl, rfl⟩
  | accepted _ htick =>
    obtain ⟨hends, hflags, hnv⟩ := audioTick_boundaries htick
    exact .inl ⟨hends, hflags, hnv⟩
  | control => exact controlTick_boundaries s

/-- R21: a step that takes no RESET word leaves the boundaries or commits. -/
theorem step_boundaries (h : step s = .next t) (hnoreset : ∀ w rest, s.stim = w :: rest → decodeStim w ≠ .reset) :
    SameBoundaries s t ∨ Committed s t := by
  rcases step_effect h with rfl | ⟨w, rest, hstim, ⟨hreset, -⟩ | heffect⟩
  · exact .inl ⟨rfl, rfl, rfl⟩
  · exact absurd hreset (hnoreset w rest hstim)
  · rcases stimEffect_boundaries heffect with ⟨hends, hflags, hnv⟩ | ⟨hrec, hmode, hends, hflags⟩
    · exact .inl ⟨hends, hflags, hnv⟩
    · exact .inr ⟨hrec, hmode, hends, hflags⟩

/-- Settles O53: a commit sets a flag, and no other step but a reset touches one. -/
theorem recordedFlagsAreNeverClearedAtRunTime : Obligations.RecordedFlagsAreNeverClearedAtRunTime := by
  intro s t ht hnoreset k hk
  rcases step_boundaries ht hnoreset with ⟨-, hflags, -⟩ | ⟨-, -, -, hflags⟩ <;> rw [hflags]
  · exact hk
  · by_cases hslot : k = s.slot
    · rw [hslot, slotGet_slotSet_same]
    · rwa [slotGet_slotSet_other _ hslot]

/-- Settles O54: what changed was changed by a commit, and a commit changes the active slot's entries only. -/
theorem boundariesChangeOnlyInACommit : Obligations.BoundariesChangeOnlyInACommit := by
  intro s t ht hnoreset
  rcases step_boundaries ht hnoreset with ⟨hends, hflags, hnv⟩ | ⟨hrec, hmode, hends, hflags⟩
  · refine ⟨fun k hchanged => ?_, fun hchanged => absurd hnv hchanged⟩
    rw [hends, hflags] at hchanged
    simp at hchanged
  · refine ⟨fun k hchanged => ⟨?_, hrec, hmode⟩, fun _ => ⟨hrec, hmode⟩⟩
    by_contra hslot
    rw [hends, hflags, slotGet_slotSet_other _ hslot, slotGet_slotSet_other _ hslot] at hchanged
    simp at hchanged

end Sys2Proof.Proofs
end

section
/-! PROOFS. The host port: the value of a host read (R38, R290) and what a host write may change (R20, R317). -/

namespace Sys2Proof.Proofs

open Sys2Proof.Machine

variable {s : State}

/-! ### Host reads -/

/-- R41: a read of a mapped number is the register's value. -/
theorem hostReadValue_of_number {reg : RegNumber} (r : HostReg) (h : reg = hostRegNumber r) :
    hostReadValue s reg = hostRegValue s r := by
  rw [hostReadValue, (hostRegOfNumber_eq_some reg r).2 h]

/-- R41, R297: between the parameters and the read-only registers lie unmapped numbers and `CMD`. -/
theorem hostRegOfNumber_gap : ∀ reg : RegNumber, 0x0B#6 ≤ reg ∧ reg ≤ 0x0F#6 →
    hostRegOfNumber reg = none ∨ hostRegOfNumber reg = some .cmd := by decide

theorem hostRegOfNumber_above : ∀ reg : RegNumber, 0x2A#6 ≤ reg → hostRegOfNumber reg = none := by decide

theorem hostReadValue_of_unmapped {reg : RegNumber} (h : hostRegOfNumber reg = none) : hostReadValue s reg = 0#24 := by
  rw [hostReadValue, h]

theorem hostReadValue_gap {reg : RegNumber} (h : 0x0B#6 ≤ reg ∧ reg ≤ 0x0F#6) : hostReadValue s reg = 0#24 := by
  rcases hostRegOfNumber_gap reg h with hnone | hcmd
  · exact hostReadValue_of_unmapped hnone
  · rw [hostReadValue, hcmd]; rfl

/-- R290: an unsigned register of at most 24 bits reads zero-extended. -/
theorem toNat_hostReadValue_of_number {reg : RegNumber} {n : Nat} (x : BitVec n) (r : HostReg)
    (hx : hostRegValue s r = x.setWidth 24) (h : reg = hostRegNumber r) (hn : n ≤ 24 := by decide) :
    (hostReadValue s reg).toNat = x.toNat := by
  rw [hostReadValue_of_number r h, hx, BitVec.toNat_setWidth_of_le hn]

/-- R290: the low 24 bits of a cursor's two's complement. -/
theorem setWidth_cursor_eq (c : Cursor) : c.setWidth 24 = BitVec.ofInt 24 c.toInt := by
  apply BitVec.eq_of_toInt_eq
  rw [BitVec.toInt_ofInt, BitVec.toInt_setWidth, BitVec.toInt_eq_toNat_bmod, Int.bmod_bmod_of_dvd (by decide)]

theorem ctrlWord_toNat (s : State) :
    (ctrlWord s).toNat = s.tickEn.toNat + 2 * s.ovr.toNat + 4 * s.tickPend.toNat := by
  simp only [ctrlWord, toNat_append_eq, BitVec.toNat_ofBool, BitVec.toNat_ofNat]
  omega

theorem slotBits_toNat (k : SlotId) : (slotBits k).toNat = slotNumber k := by cases k <;> rfl

theorem statusWord_toNat (s : State) : (statusWord s).toNat =
    s.phase.toNat + 2 * s.dir.toNat + 4 * slotNumber s.slot + 16 * s.grainAct.toNat + 32 * s.freezeAct.toNat +
      64 * (outcomeCode s.tout).toNat + 256 * s.recorded.slot0.toNat + 512 * s.recorded.slot1.toNat +
      1024 * s.recorded.slot2.toNat + 2048 * s.recorded.slot3.toNat := by
  simp only [statusWord, toNat_append_eq, BitVec.toNat_ofBool, BitVec.toNat_ofNat, slotBits_toNat]
  omega

/-- Settles O14: the value is the one of the register that has the number. -/
theorem hostReadReturnsTheRegister : Obligations.HostReadReturnsTheRegister := by
  intro s reg
  have read (r : HostReg) : reg = hostRegNumber r → hostReadValue s reg = hostRegValue s r :=
    hostReadValue_of_number r
  have unsigned {n : Nat} (x : BitVec n) (r : HostReg) (hx : hostRegValue s r = x.setWidth 24)
      (hn : n ≤ 24 := by decide) : reg = hostRegNumber r → (hostReadValue s reg).toNat = x.toNat :=
    fun h => toNat_hostReadValue_of_number x r hx h hn
  exact ⟨hostReadValue s reg, rfl, fun h => (congrArg _ (read .ctrl h)).trans (ctrlWord_toNat s),
    unsigned s.gest .gest rfl, read .msNow, unsigned s.rate .rate rfl, unsigned s.bitres .bitres rfl,
    unsigned s.cutLp .cutLp rfl, unsigned s.fbLp .fbLp rfl, unsigned s.cutHp .cutHp rfl,
    unsigned s.fbHp .fbHp rfl, unsigned s.grainSize .grainSize rfl, unsigned s.stretch .stretch rfl,
    hostReadValue_gap, unsigned (modeCode s.mode) .mode rfl,
    fun h => (congrArg _ (read .status h)).trans (statusWord_toNat s),
    fun h => (read .pcur h).trans (setWidth_cursor_eq _), fun h => (read .wcur h).trans (setWidth_cursor_eq _),
    fun h => (read .gaddr h).trans (setWidth_cursor_eq _), read .gcnt, read .spg,
    fun h => (read .anchor h).trans (setWidth_cursor_eq _), read .end0, read .end1, read .end2, read .end3,
    unsigned s.recRate .recRate rfl, unsigned s.tickRate .tickRate rfl, unsigned s.outSample .out rfl,
    read .mix, read .lpBuf0, read .lpBuf1, read .hpBuf0, read .hpBuf1, unsigned s.inSample .inp rfl,
    unsigned s.rbuf .rbuf rfl, unsigned s.d0 .d0 rfl, unsigned s.d1 .d1 rfl, read .tRecStart, read .tRecEnd,
    fun h => hostReadValue_of_unmapped (hostRegOfNumber_above reg h)⟩

/-! ### Host writes -/

/-- R291, R292: the fields a parameter write may write. -/
theorem writeParam_frame (r : HostReg) (d : Word24) (s : State) : writeParam r d s =
    { s with
      gest := (writeParam r d s).gest, msNow := (writeParam r d s).msNow, rate := (writeParam r d s).rate
      bitres := (writeParam r d s).bitres, cutLp := (writeParam r d s).cutLp, fbLp := (writeParam r d s).fbLp
      cutHp := (writeParam r d s).cutHp, fbHp := (writeParam r d s).fbHp
      grainSize := (writeParam r d s).grainSize, stretch := (writeParam r d s).stretch } := by
  cases r <;> rfl

/-- R291, R292: a parameter write leaves the bits of `CTRL`. -/
theorem writeParam_ctrl (r : HostReg) (d : Word24) (s : State) :
    (writeParam r d s).tickEn = s.tickEn ∧ (writeParam r d s).ovr = s.ovr := by
  cases r <;> exact ⟨rfl, rfl⟩

/-- Settles O56: of the three things a host write can be, the first is here without a release, the second excluded. -/
theorem hostWritesTouchOnlyHostRegisters : Obligations.HostWritesTouchOnlyHostRegisters := by
  intro s t reg d ht hnotick hnorelease
  rcases execHwr_cases reg d s with ⟨hreg, heq⟩ | ⟨hreg, hbit, -⟩ | ⟨r, heq⟩
  · rcases writeCtrl_cases (d.getLsbD 0) (d.getLsbD 1) s with ⟨hen, hpend, -⟩ | ⟨-, hwrite⟩
    · exact absurd ⟨hreg, hen, hpend⟩ hnorelease
    · cases (heq.trans hwrite).symm.trans ht
      rfl
  · exact absurd ⟨hreg, hbit⟩ hnotick
  · cases heq.symm.trans ht
    obtain ⟨hen, hovr⟩ := writeParam_ctrl r d s
    rw [hen, hovr]
    exact writeParam_frame r d s

end Sys2Proof.Proofs
end

section
/-! PROOFS. When a packed transaction is not defined (R72, R87): for each operation that issues one, the record bases
for which it gives no state, and the refusal (log 7) of the row. -/

namespace Sys2Proof.Proofs

open Sys2Proof.Machine

variable {s : State}

/-- R87: the bases that `StoreRead` and `StoreWrite` are not defined for. -/
theorem baseInRange_eq_false_iff (b : Int) : baseInRange b = false ↔ b < 0 ∨ 65533 < b := by
  have hrange : baseInRange b = true ↔ 0 ≤ b ∧ b ≤ 65533 := decide_eq_true_iff
  rw [← Bool.not_eq_true, hrange]
  omega

theorem mappedRead_eq_none_iff (s : State) (k : SlotId) (c : Int) :
    mappedRead s k c = none ↔ baseInRange (recordBase k c) = false := by
  rw [mappedRead, Option.map_eq_none_iff, storeRead]
  split
  next h => simp [h]
  next h => simp [h]

theorem mappedWrite_eq_none_iff (s : State) (k : SlotId) (c : Int) (a b : Sample) :
    mappedWrite s k c a b = none ↔ baseInRange (recordBase k c) = false := by
  rw [mappedWrite, storeWrite]
  split
  next h => simp [h]
  next h => simp [h]

theorem grainStep_eq_none_iff (s : State) (k : SlotId) :
    grainStep s k = none ↔ baseInRange (recordBase k (grainPosOf s k)) = false := by
  rw [grainStep, Option.map_eq_none_iff, mappedRead_eq_none_iff]

theorem recordPair_eq_none_iff (s : State) :
    recordPair s = none ↔ baseInRange (recordBase s.slot s.wcur.toInt) = false := by
  rw [recordPair, Option.map_eq_none_iff, mappedWrite_eq_none_iff]

theorem readAndSample_eq_none_iff (s : State) :
    readAndSample s = none ↔ baseInRange (recordBase s.slot s.pcur.toInt) = false := by
  rw [readAndSample, Option.map_eq_none_iff, mappedRead_eq_none_iff]

/-- R254, R264: the normal read writes nothing that the grain position depends on. -/
theorem readAndSample_grainPosOf {t : State} (h : readAndSample s = some t) :
    t.slot = s.slot ∧ grainPosOf t = grainPosOf s := by
  obtain ⟨r, hread, rfl⟩ := (readAndSample_eq_some ..).1 h
  obtain ⟨-, -, hlog⟩ := (mappedRead_eq_some ..).1 hread
  rw [hlog]
  exact ⟨rfl, rfl⟩

/-- R264: a substituted tick reads at the playback cursor and at the grain position. -/
theorem playSubstituted_eq_none_iff (s : State) :
    playSubstituted s = none ↔ baseInRange (recordBase s.slot s.pcur.toInt) = false ∨
      baseInRange (recordBase s.slot (grainPosOf s s.slot)) = false := by
  have hnormal : readAndSample (emitOutput (beginTick s)) = none ↔
      baseInRange (recordBase s.slot s.pcur.toInt) = false := readAndSample_eq_none_iff _
  rw [playSubstituted, ← hnormal]
  cases hread : readAndSample (emitOutput (beginTick s)) with
  | none => simp
  | some u =>
    obtain ⟨hslot, hpos⟩ : u.slot = s.slot ∧ grainPosOf u = grainPosOf s :=
      readAndSample_grainPosOf (s := emitOutput (beginTick s)) hread
    simp [grainStep_eq_none_iff, hslot, hpos]

/-- I4, log 7: an operation without a state is refused by name, and so is what follows it in the same tick. -/
theorem outcomeOf_map_of_none {α : Type} {o : Option α} (h : o = none) (f : α → State) :
    outcomeOf (o.map f) = .refused .storageBaseOutOfRange := by
  rw [h, Option.map_none, outcomeOf_none]

/-- Settles O37: each row's outcome is that of an operation that has no state for such a base. -/
theorem outOfRangeRecordBaseIsRefused : Obligations.OutOfRangeRecordBaseIsRefused := by
  simp only [Obligations.OutOfRangeRecordBaseIsRefused, ← baseInRange_eq_false_iff]
  refine ⟨fun s k c hbase => ⟨?_, fun a b => ?_⟩, fun s hbase => ?_, fun s hbase => ?_, fun s k hbase => ?_,
    fun s hbase => ⟨?_, ?_⟩⟩
  · exact outcomeOf_map_of_none ((mappedRead_eq_none_iff s k _).2 hbase) _
  · exact congrArg outcomeOf ((mappedWrite_eq_none_iff s k _ a b).2 hbase)
  · exact outcomeOf_map_of_none ((recordPair_eq_none_iff (passInput s)).2 (by simpa using hbase)) _
  · exact outcomeOf_map_of_none ((readAndSample_eq_none_iff (emitOutput (beginTick s))).2 hbase) _
  · exact congrArg outcomeOf ((grainStep_eq_none_iff s k).2 hbase)
  · exact outcomeOf_map_of_none ((playSubstituted_eq_none_iff s).2 hbase) _
  · exact outcomeOf_map_of_none ((playSubstituted_eq_none_iff s).2 hbase) _

end Sys2Proof.Proofs
end

section
/-! PROOFS. Slots of one device share its bytes (R86): the mapper addresses a record by the device and the cursor. -/

namespace Sys2Proof.Proofs

open Sys2Proof.Machine

variable {s t : State}

/-- R179: the halves of the middle byte return to the two samples they came from. -/
theorem unpack_pack (a b : Sample) : unpack (pack a b) = (a, b) := by
  refine Prod.ext (BitVec.eq_of_toNat_eq ?_) (BitVec.eq_of_toNat_eq ?_)
  all_goals
    simp only [unpack, pack, toNat_append_eq, BitVec.extractLsb'_toNat, Nat.shiftRight_eq_div_pow]
    omega

/-- R72: a record at an in-range base lies inside the device. -/
theorem toNat_add_two_lt_of_baseInRange {b : Int} (h : baseInRange b = true) : b.toNat + 2 < Config.devBytes := by
  obtain ⟨hlow, hhigh⟩ : 0 ≤ b ∧ b ≤ 65533 := of_decide_eq_true h
  rw [Config.devBytes]
  omega

/-- R179: a mapped read where a mapped write of the same slot went returns the samples written. -/
theorem mappedRead_mappedWrite {k : SlotId} {c : Int} {a b : Sample}
    (hwf : memWf Config.devBytes (deviceOf s (chipOf k)) = true) (h : mappedWrite s k c a b = some t) :
    ∃ r, mappedRead t k c = some r ∧ r.1 = (a, b) := by
  obtain ⟨hbase, rfl⟩ := (mappedWrite_eq_some ..).1 h
  refine ⟨(_, _), (mappedRead_eq_some ..).2 ⟨hbase, rfl, rfl⟩, ?_⟩
  show unpack (recordAt (deviceOf _ (chipOf k)) _) = (a, b)
  rw [deviceOf_logEvent, deviceOf_withDevice_same,
    recordAt_writeRecord (toNat_add_two_lt_of_baseInRange hbase) _ hwf, unpack_pack]

/-- R22, R176: the device of a slot fixes its orientation, and so the record base of a cursor. -/
theorem recordBase_eq_of_chipOf_eq {j k : SlotId} (h : chipOf j = chipOf k) (c : Int) :
    recordBase j c = recordBase k c := by
  have hsigma (i : SlotId) : sigma i = 1 ↔ chipOf i = .a := by cases i <;> decide
  simp only [recordBase, hsigma, h]

/-- R86: slots of one device read the same. -/
theorem mappedRead_eq_of_chipOf_eq {j k : SlotId} (h : chipOf j = chipOf k) (s : State) (c : Int) :
    mappedRead s j c = mappedRead s k c := by
  rw [mappedRead, mappedRead, h, recordBase_eq_of_chipOf_eq h]

/-- R181: a mapped write leaves the slot table. -/
theorem mappedWrite_slotTable {k : SlotId} {c : Int} {a b : Sample} (h : mappedWrite s k c a b = some t) :
    t.endAddr = s.endAddr ∧ t.recorded = s.recorded := by
  obtain ⟨-, rfl⟩ := (mappedWrite_eq_some ..).1 h
  exact ⟨by simp, by simp⟩

/-- Settles O42: the other slot of the pair reads what the slot that wrote would read. -/
theorem aliasedSlotsShareBytes : Obligations.AliasedSlotsShareBytes := by
  intro s t c a b j k hpair hwf ht
  have hchip : chipOf j = chipOf k := by
    rcases hpair with ⟨rfl, rfl⟩ | ⟨rfl, rfl⟩ | ⟨rfl, rfl⟩ | ⟨rfl, rfl⟩ <;> rfl
  have hwrite : mappedWrite s j c.toInt a b = some t := (outcomeOf_eq_next _ _).1 ht
  rw [← mappedRead_eq_of_chipOf_eq hchip]
  exact ⟨mappedRead_mappedWrite hwf hwrite, mappedWrite_slotTable hwrite⟩

end Sys2Proof.Proofs
end

section
/-! PROOFS. Under the invariants of R48 no step stops (R87, R269, R310): every cursor that a tick uses names a record
inside the device, and no other operation can be refused. -/

namespace Sys2Proof.Proofs

open Sys2Proof.Machine

variable {s : State}

/-! ### The record bases -/

/-- R183: a valid read cursor names a record inside the device. -/
theorem baseInRange_of_validReadCursor {k : SlotId} {e c : Int} (he : ValidEnd k e) (hc : ValidReadCursor k e c) :
    baseInRange (recordBase k c) = true := by
  have htop : extent k e ≤ 65535 := he.2.1
  obtain ⟨hnonneg, hbelow, hthree⟩ := hc
  exact baseInRange_of_dist hnonneg (by omega)

/-- R201, R207: the grain read position of a valid window start is a valid read cursor: the fold by an extent that is a
multiple of 3 keeps multiples of 3. -/
theorem grainPos_valid {k : SlotId} {e g : Int} (he : ValidEnd k e) (rev : Bool) (n : Nat)
    (hg : ValidReadCursor k e g) : ValidReadCursor k e (grainPos k rev e g n) := by
  obtain ⟨hnonneg, -, hthree⟩ : 0 ≤ extent k e ∧ extent k e ≤ 65535 ∧ extent k e % 3 = 0 := he
  obtain ⟨-, -, hstart⟩ := hg
  have hmoved : (distOf k g + dirSign rev * Config.stride * n) % 3 = 0 := by
    rw [mul_right_comm, Config.stride, Int.add_mul_emod_self_right, hstart]
  have hdist : distOf k (grainPos k rev e g n) =
      foldIntoExtent (distOf k g + dirSign rev * Config.stride * n) (extent k e) := by
    rw [grainPos, distOf_add_sigma_mul, distOf_origin, Int.zero_add]
  rw [ValidReadCursor, hdist, foldIntoExtent]
  split_ifs with hempty hpos
  · omega
  · have hfolded := Int.emod_emod_of_dvd (distOf k g + dirSign rev * Config.stride * n)
      (Int.dvd_of_emod_eq_zero hthree)
    exact ⟨Int.emod_nonneg _ hempty, lt_max_of_lt_left (Int.emod_lt_of_pos _ hpos), hfolded.trans hmoved⟩
  · omega

/-- R48 (iv): in RECORD the write cursor's record is inside the device. -/
theorem writeBase_inRange (h : Invariants s) (hm : s.mode = .record) :
    baseInRange (recordBase s.slot s.wcur.toInt) = true := by
  obtain ⟨hnonneg, hle, -⟩ := h.recordCursor hm
  exact baseInRange_of_dist hnonneg (by omega)

/-- R48 (v): in PLAYBACK the playback cursor's record is inside the device. -/
theorem playBase_inRange (h : Invariants s) (hm : s.mode = .playback) :
    baseInRange (recordBase s.slot s.pcur.toInt) = true :=
  baseInRange_of_validReadCursor (h.endsValid _) (h.playCursor hm)

/-- R48 (v): in PLAYBACK the grain position's record is inside the device. -/
theorem grainBase_inRange (h : Invariants s) (hm : s.mode = .playback) :
    baseInRange (recordBase s.slot (grainPosOf s s.slot)) = true :=
  baseInRange_of_validReadCursor (h.endsValid _) (grainPos_valid (h.endsValid _) _ _ (h.grainCursor hm))

/-! ### The audio tick -/

/-- R87: an operation that gives a state completes, with what follows it in the same tick. -/
theorem outcomeOf_map_completes {o : Option State} (h : o ≠ none) (f : State → State) :
    ∃ t, outcomeOf (o.map f) = .next t := by
  obtain ⟨u, rfl⟩ := Option.ne_none_iff_exists'.1 h
  exact ⟨f u, rfl⟩

theorem execAtRecO_completes (h : Invariants s) (hm : s.mode = .record) : ∃ t, execAtRecO s = .next t := by
  refine outcomeOf_map_completes ?_ _
  rw [ne_eq, recordPair_eq_none_iff]
  simp [writeBase_inRange h hm]

theorem execAtPlayE_completes (h : Invariants s) (hm : s.mode = .playback) : ∃ t, execAtPlayE s = .next t := by
  refine outcomeOf_map_completes ?_ _
  rw [ne_eq, readAndSample_eq_none_iff]
  simp [playBase_inRange h hm]

theorem playSubstituted_completes (h : Invariants s) (hm : s.mode = .playback) :
    ∃ t, outcomeOf ((playSubstituted s).map finishTick) = .next t := by
  refine outcomeOf_map_completes ?_ _
  rw [ne_eq, playSubstituted_eq_none_iff]
  simp [playBase_inRange h hm, grainBase_inRange h hm]

/-- R108: an operation that issues a packed read is selected in PLAYBACK alone. -/
theorem mode_of_selectTick_play {f : TickFields}
    (h : selectTick f = .playEven ∨ selectTick f = .playGrain ∨ selectTick f = .playFreeze) :
    f.mode = .playback := by
  cases hm : f.mode with
  | playback => rfl
  | off => simp [selectTick, hm] at h
  | passthrough => simp [selectTick, hm] at h
  | recordDone => simp [selectTick, hm] at h
  | record => simp only [selectTick, hm] at h; split_ifs at h <;> simp at h

/-- R269: under the invariants an audio tick completes, whatever operation is selected. -/
theorem audioTick_completes (h : Invariants s) : ∃ t, audioTick s = .next t := by
  unfold audioTick
  cases hop : selectTick (tickFields s) with
  | off => exact ⟨_, rfl⟩
  | pass => exact ⟨_, rfl⟩
  | recEven => exact ⟨_, rfl⟩
  | recOdd => exact execAtRecO_completes h (mode_of_selectTick_recOdd hop)
  | done => exact ⟨_, rfl⟩
  | playEven => exact execAtPlayE_completes h (mode_of_selectTick_play (.inl hop))
  | playOdd => exact ⟨_, rfl⟩
  | playGrain => exact playSubstituted_completes h (mode_of_selectTick_play (.inr (.inl hop)))
  | playFreeze => exact playSubstituted_completes h (mode_of_selectTick_play (.inr (.inr hop)))

/-! ### The stimulus words -/

theorem execAtick_completes (h : Invariants s) (a : Sample) : ∃ t, execAtick a s = .next t := by
  rcases timerEvent_cases { s with ain := a } with ⟨-, heq⟩ | ⟨-, heq⟩ <;> rw [execAtick, heq]
  · exact audioTick_completes { h with }
  · exact ⟨_, rfl⟩

theorem writeCtrl_completes (h : Invariants s) (en clr : Bool) : ∃ t, writeCtrl en clr s = .next t := by
  rcases writeCtrl_cases en clr s with ⟨-, -, heq⟩ | ⟨-, heq⟩ <;> rw [heq]
  · exact audioTick_completes { h with pendingOnlyDisabled := fun _ => rfl }
  · exact ⟨_, rfl⟩

theorem execHwr_completes (h : Invariants s) (reg : RegNumber) (d : Word24) : ∃ t, execHwr reg d s = .next t := by
  rcases execHwr_cases reg d s with ⟨-, heq⟩ | ⟨-, -, heq⟩ | ⟨_, heq⟩ <;> rw [heq]
  · exact writeCtrl_completes h _ _
  · exact ⟨_, rfl⟩
  · exact ⟨_, rfl⟩

/-- R104: a decoded word, whatever its kind, completes. -/
theorem exec_decodeStim_completes (h : Invariants s) (w : StimWord) : ∃ t, exec (decodeStim w) s = .next t := by
  simp only [decodeStim]
  split
  · exact ⟨_, rfl⟩
  · exact execAtick_completes h _
  · split_ifs
    · exact writeCtrl_completes h _ _
    · exact ⟨_, rfl⟩
    · exact execHwr_completes h _ _
  · exact ⟨_, rfl⟩

/-- Settles O13: a step is idle or executes a decoded word. -/
theorem noStepStopsUnderInvariants : Obligations.NoStepStopsUnderInvariants := by
  intro s h
  cases hstim : s.stim with
  | nil => exact ⟨s, by simp only [step, fetchStim, hstim]⟩
  | cons w rest =>
    simp only [step, fetchStim, hstim]
    refine exec_decodeStim_completes ?_ w
    exact { h with }

end Sys2Proof.Proofs
end

section
/-! PROOFS. The storage devices over one step (R79, R260): every effect of a stimulus word leaves their bytes, except an
odd audio tick in RECORD, and that one writes the record at the write cursor. -/

namespace Sys2Proof.Proofs

open Sys2Proof.Machine

variable {s t : State}

/-- A byte of a device is one of the three of the record at a cursor of a slot (R72, R176). -/
def InRecord (k : SlotId) (cur : Int) (c : Chip) (a : Nat) : Prop :=
  c = chipOf k ∧ (recordBase k cur).toNat ≤ a ∧ a ≤ (recordBase k cur).toNat + 2

/-- What an operation can do to the storage devices: nothing, or, in RECORD with `PHASE` 1, change bytes of the record
at the write cursor of the active slot. -/
inductive DeviceEffect (s t : State) : Prop where
  | same (devices : deviceOf t = deviceOf s)
  | recorded (mode : s.mode = .record) (phase : s.phase = true)
      (inRecord : ∀ c a, memRead (deviceOf t c) a ≠ memRead (deviceOf s c) a → InRecord s.slot s.wcur.toInt c a)

theorem deviceOf_congr (hA : t.storeA = s.storeA) (hB : t.storeB = s.storeB) : deviceOf t = deviceOf s := by
  funext c
  cases c
  · exact hA
  · exact hB

/-! ### The audio tick -/

theorem finishTick_devices (s : State) : deviceOf (finishTick s) = deviceOf s := deviceOf_congr (by simp) (by simp)

theorem emitOutput_beginTick_devices (s : State) : deviceOf (emitOutput (beginTick s)) = deviceOf s :=
  deviceOf_congr rfl rfl

theorem passInput_devices (s : State) : deviceOf (passInput s) = deviceOf s := deviceOf_congr (by simp) (by simp)

theorem mappedRead_devices {k : SlotId} {c : Int} {r : (Sample × Sample) × State}
    (hr : mappedRead s k c = some r) : deviceOf r.2 = deviceOf s := by
  obtain ⟨-, -, hlog⟩ := (mappedRead_eq_some ..).1 hr
  rw [hlog]
  exact deviceOf_congr rfl rfl

theorem readAndSample_devices (h : readAndSample s = some t) : deviceOf t = deviceOf s := by
  obtain ⟨r, hread, rfl⟩ := (readAndSample_eq_some ..).1 h
  exact (deviceOf_congr rfl rfl).trans (mappedRead_devices hread)

theorem grainStep_devices {k : SlotId} (h : grainStep s k = some t) : deviceOf t = deviceOf s := by
  obtain ⟨r, hread, rfl⟩ := (grainStep_eq_some ..).1 h
  exact (deviceOf_congr (by simp) (by simp)).trans (mappedRead_devices hread)

theorem playSubstituted_devices (h : playSubstituted s = some t) : deviceOf t = deviceOf s := by
  obtain ⟨u, hread, hgrain⟩ := (playSubstituted_eq_some ..).1 h
  calc deviceOf t = deviceOf u := grainStep_devices hgrain
    _ = deviceOf (emitOutput (beginTick s)) := readAndSample_devices hread
    _ = deviceOf s := emitOutput_beginTick_devices s

/-- R181: a byte that a mapped write changes is one of its record's. -/
theorem mappedWrite_changed {k : SlotId} {cur : Int} {x y : Sample} (h : mappedWrite s k cur x y = some t)
    {c : Chip} {a : Nat} (hchanged : memRead (deviceOf t c) a ≠ memRead (deviceOf s c) a) : InRecord k cur c a := by
  obtain ⟨-, rfl⟩ := (mappedWrite_eq_some ..).1 h
  rw [deviceOf_logEvent] at hchanged
  have hchip : c = chipOf k := by
    by_contra hne
    exact hchanged (by rw [deviceOf_withDevice_other _ hne])
  subst hchip
  rw [deviceOf_withDevice_same] at hchanged
  have hin := mt (fun hout => memRead_writeRecord_other hout (deviceOf s (chipOf k)) (pack x y)) hchanged
  exact ⟨rfl, by omega, by omega⟩

/-- R260: a byte that an odd record tick changes is one of the record at the write cursor. -/
theorem recordPair_changed (h : recordPair s = some t) {c : Chip} {a : Nat}
    (hchanged : memRead (deviceOf t c) a ≠ memRead (deviceOf s c) a) : InRecord s.slot s.wcur.toInt c a := by
  obtain ⟨u, hwrite, rfl⟩ := (recordPair_eq_some ..).1 h
  have hafter : deviceOf (checkOverflow (advanceWrite u)) = deviceOf u := deviceOf_congr (by simp) (by simp)
  exact mappedWrite_changed hwrite (hafter ▸ hchanged)

/-- R108, R259: an even tick in RECORD stores no pair. -/
theorem audioTick_devices_of_even (hm : s.mode = .record) (hp : s.phase = false) (h : audioTick s = .next t) :
    deviceOf t = deviceOf s := by
  have heven : audioTick s = execAtRecE s := by simp [audioTick, selectTick, tickFields, hm, hp, runTickOp]
  rw [heven] at h
  cases h
  exact deviceOf_congr (by simp) (by simp)

theorem audioTick_devices (h : audioTick s = .next t) : DeviceEffect s t := by
  cases audioTick_effect h with
  | pass => exact .same (deviceOf_congr (by simp) (by simp))
  | recEven => exact .same (deviceOf_congr (by simp) (by simp))
  | recOdd hm hpair =>
    cases hp : s.phase with
    | false => exact .same (audioTick_devices_of_even hm hp h)
    | true =>
      refine .recorded hm hp fun c a hchanged => ?_
      rw [finishTick_devices, ← passInput_devices s] at hchanged
      simpa using recordPair_changed hpair hchanged
  | done => exact .same (deviceOf_congr (by simp) (by simp))
  | @playEven u hread =>
    have hrest : deviceOf (finishTick (advancePlay (mixStored u.d0 u))) = deviceOf u :=
      deviceOf_congr (by simp) (by simp)
    exact .same (hrest.trans ((readAndSample_devices hread).trans (emitOutput_beginTick_devices s)))
  | playOdd => exact .same (deviceOf_congr (by simp) (by simp))
  | substituted hgrain => exact .same ((finishTick_devices _).trans (playSubstituted_devices hgrain))

/-! ### One step -/

/-- An effect from a state that differs only in fields no device effect depends on. -/
theorem DeviceEffect.of_agree {r : State} (h : DeviceEffect r t) (hdevices : deviceOf r = deviceOf s)
    (hmode : r.mode = s.mode) (hphase : r.phase = s.phase) (hslot : r.slot = s.slot) (hwcur : r.wcur = s.wcur) :
    DeviceEffect s t := by
  cases h with
  | same hsame => exact .same (hsame.trans hdevices)
  | recorded hm hp hin =>
    rw [hdevices, hslot, hwcur] at hin
    exact .recorded (hmode ▸ hm) (hphase ▸ hp) hin

theorem stimEffect_devices (h : StimEffect s t) : DeviceEffect s t := by
  cases h with
  | hostRead => exact .same (deviceOf_congr rfl rfl)
  | hostWrite r d => exact .same (by cases r <;> exact deviceOf_congr rfl rfl)
  | ctrlBits => exact .same (deviceOf_congr rfl rfl)
  | release _ htick => exact (audioTick_devices htick).of_agree (deviceOf_congr rfl rfl) rfl rfl rfl rfl
  | held => exact .same (deviceOf_congr rfl rfl)
  | accepted _ htick => exact (audioTick_devices htick).of_agree (deviceOf_congr rfl rfl) rfl rfl rfl rfl
  | control => exact .same (deviceOf_congr (by simp) (by simp))

/-- R46, R79: a reset leaves the devices; an idle step leaves all; a stimulus word has its effect. -/
theorem step_devices (h : step s = .next t) : DeviceEffect s t := by
  rcases step_effect h with rfl | ⟨w, rest, -, ⟨-, rfl⟩ | heffect⟩
  · exact .same rfl
  · exact .same (by rw [resetSequence_eq]; exact deviceOf_congr rfl rfl)
  · exact (stimEffect_devices heffect).of_agree (deviceOf_congr rfl rfl) rfl rfl rfl rfl

/-- Settles O55: a byte reads differently only after the effect that records. -/
theorem devicesChangeOnlyByRecording : Obligations.DevicesChangeOnlyByRecording := by
  intro s t ht c a hchanged
  cases step_devices ht with
  | same hsame => exact absurd (by rw [hsame]) hchanged
  | recorded hmode hphase hin => exact ⟨hmode, hphase, hin c a hchanged⟩

end Sys2Proof.Proofs
end

section
/-! PROOFS. The stimulus word of R104 by its three fields: what each kind decodes to, the six instructions a word can
be, and the reading back of their encodings. -/

namespace Sys2Proof.Proofs

open Sys2Proof.Machine

/-! ### The fields -/

theorem stimWordOf_kindField (kind : BitVec 2) (reg : RegNumber) (data : Word24) :
    (stimWordOf kind reg data).extractLsb' 30 2 = kind := by
  unfold stimWordOf
  rw [BitVec.append_assoc, BitVec.extractLsb'_cast]
  exact BitVec.extractLsb'_append_eq_left

theorem stimWordOf_regField (kind : BitVec 2) (reg : RegNumber) (data : Word24) :
    (stimWordOf kind reg data).extractLsb' 24 6 = reg := by
  unfold stimWordOf
  rw [BitVec.extractLsb'_append_eq_of_le (by decide)]
  exact BitVec.extractLsb'_append_eq_right

theorem stimWordOf_dataField (kind : BitVec 2) (reg : RegNumber) (data : Word24) :
    (stimWordOf kind reg data).extractLsb' 0 24 = data :=
  BitVec.extractLsb'_append_eq_right

/-- R104: the level of an `ATICK` is the low part of the data field. -/
theorem stimWordOf_levelField (kind : BitVec 2) (reg : RegNumber) (data : Word24) :
    (stimWordOf kind reg data).extractLsb' 0 12 = data.extractLsb' 0 12 :=
  BitVec.extractLsb'_append_eq_of_add_le (by decide)

/-- R104: the three fields make up the word. -/
theorem stimWordOf_fields (w : StimWord) :
    stimWordOf (w.extractLsb' 30 2) (w.extractLsb' 24 6) (w.extractLsb' 0 24) = w := by
  unfold stimWordOf
  rw [BitVec.extractLsb'_append_extractLsb'_eq_extractLsb' (start₂ := 30) rfl,
    BitVec.extractLsb'_append_extractLsb'_eq_extractLsb' (start₂ := 24) rfl]
  exact BitVec.extractLsb'_eq_self

/-! ### What each kind decodes to -/

theorem decodeStim_read (reg : RegNumber) (data : Word24) : decodeStim (stimWordOf 0#2 reg data) = .hrd reg := by
  simp [decodeStim, stimWordOf_kindField, stimWordOf_regField]

theorem decodeStim_tick (reg : RegNumber) (data : Word24) :
    decodeStim (stimWordOf 1#2 reg data) = .atick (data.extractLsb' 0 12) := by
  simp [decodeStim, stimWordOf_kindField, stimWordOf_levelField]

theorem decodeStim_write (reg : RegNumber) (data : Word24) :
    decodeStim (stimWordOf 2#2 reg data) =
      if reg = 0x00#6 then .hwrCtrl (data.getLsbD 0) (data.getLsbD 1)
      else if reg = 0x0F#6 ∧ data.getLsbD 0 = true then .ctick
      else .hwr reg data := by
  simp only [decodeStim, stimWordOf_kindField, stimWordOf_regField, stimWordOf_dataField]
  rfl

theorem decodeStim_reset (reg : RegNumber) (data : Word24) : decodeStim (stimWordOf 3#2 reg data) = .reset := by
  simp [decodeStim, stimWordOf_kindField]

/-- R110: what the specialisations leave to the general host write. -/
theorem generalWrite_iff (reg : RegNumber) (data : Word24) :
    generalWrite reg data = true ↔ reg ≠ 0x00#6 ∧ ¬(reg = 0x0F#6 ∧ data.getLsbD 0 = true) := by
  simp only [generalWrite, Bool.and_eq_true, Bool.not_eq_true', Bool.and_eq_false_iff, beq_eq_false_iff_ne, not_and_or,
    Bool.not_eq_true]

theorem decodeStim_generalWrite {reg : RegNumber} {data : Word24} (h : generalWrite reg data = true) :
    decodeStim (stimWordOf 2#2 reg data) = .hwr reg data := by
  obtain ⟨hctrl, hcmd⟩ := (generalWrite_iff ..).1 h
  rw [decodeStim_write, if_neg hctrl, if_neg hcmd]

/-! ### The instructions a word can be -/

/-- The instructions of the stimulus words of a kind (R104). -/
inductive StimReading : BitVec 2 → Instr → Prop where
  | hrd (reg : RegNumber) : StimReading 0#2 (.hrd reg)
  | atick (ain : Sample) : StimReading 1#2 (.atick ain)
  | hwrCtrl (en clr : Bool) : StimReading 2#2 (.hwrCtrl en clr)
  | ctick : StimReading 2#2 .ctick
  | hwr {reg : RegNumber} {data : Word24} (general : generalWrite reg data = true) : StimReading 2#2 (.hwr reg data)
  | reset : StimReading 3#2 .reset

theorem decodeStim_stimWordOf_reading (kind : BitVec 2) (reg : RegNumber) (data : Word24) :
    StimReading kind (decodeStim (stimWordOf kind reg data)) := by
  have hkind : kind = 0#2 ∨ kind = 1#2 ∨ kind = 2#2 ∨ kind = 3#2 := by revert kind; decide
  rcases hkind with rfl | rfl | rfl | rfl
  · rw [decodeStim_read]; exact .hrd reg
  · rw [decodeStim_tick]; exact .atick _
  · rw [decodeStim_write]
    split_ifs with hctrl hcmd
    · exact .hwrCtrl _ _
    · exact .ctick
    · exact .hwr ((generalWrite_iff ..).2 ⟨hctrl, hcmd⟩)
  · rw [decodeStim_reset]; exact .reset

/-- R104, R111: every word has a reading, of the kind its two top bits name. -/
theorem decodeStim_reading (w : StimWord) : StimReading (w.extractLsb' 30 2) (decodeStim w) := by
  have h := decodeStim_stimWordOf_reading (w.extractLsb' 30 2) (w.extractLsb' 24 6) (w.extractLsb' 0 24)
  rwa [stimWordOf_fields] at h

/-- An instruction is the reading of words of one kind only. -/
theorem StimReading.kind_unique {k l : BitVec 2} {i : Instr} (hk : StimReading k i) (hl : StimReading l i) : k = l := by
  cases hk <;> cases hl <;> rfl

theorem StimReading.wellFormed {k : BitVec 2} {i : Instr} (h : StimReading k i) : i.wellFormed = true := by
  cases h with
  | hwr general => exact general
  | _ => rfl

/-- R113: the encoding of a reading is a stimulus word that decodes to it. -/
theorem StimReading.decode_encode {k : BitVec 2} {i : Instr} (h : StimReading k i) :
    ∃ w, encode i = some (.stim w) ∧ decodeStim w = i := by
  cases h with
  | hrd reg => exact ⟨_, rfl, decodeStim_read reg _⟩
  | atick ain =>
    refine ⟨_, rfl, (decodeStim_tick _ _).trans (congrArg Instr.atick ?_)⟩
    exact BitVec.extractLsb'_append_eq_right
  | hwrCtrl en clr =>
    refine ⟨_, rfl, (decodeStim_write _ _).trans ?_⟩
    cases en <;> cases clr <;> rfl
  | ctick => exact ⟨_, rfl, by decide⟩
  | hwr general => exact ⟨_, rfl, decodeStim_generalWrite general⟩
  | reset => exact ⟨_, rfl, decodeStim_reset _ _⟩

/-- Settles O2: the encoding decodes to the same instruction, and an instruction has one kind. -/
theorem everyStimulusWordIsAnInstruction : Obligations.EveryStimulusWordIsAnInstruction := by
  intro w
  have hreading := decodeStim_reading w
  obtain ⟨w', hencode, hdecode⟩ := hreading.decode_encode
  have hreading' : StimReading (w'.extractLsb' 30 2) (decodeStim w) := hdecode ▸ decodeStim_reading w'
  exact ⟨hreading.wellFormed, w', hencode, hdecode, hreading'.kind_unique hreading⟩

end Sys2Proof.Proofs
end

section
/-! PROOFS. The tick dispatch word of R108: its fields read back from the word assembled of them, and its two tables
read by the word's own bits. -/

namespace Sys2Proof.Proofs

open Sys2Proof.Machine

@[simp] theorem modeOfCode_modeCode (m : Mode) : modeOfCode (modeCode m) = some m := by cases m <;> rfl

/-! ### Words read by their bits -/

section
variable {w : TickWord}

theorem decodeTick_of_fields {f : TickFields} (h : tickFieldsOf w = .ok f) : decodeTick w = .ok (selectTick f) := by
  rw [decodeTick, h]

/-- R108: the fields of a word with bit 7 clear that names a mode. -/
theorem tickFieldsOf_of_mode (h7 : w.getLsbD 7 = false) {m : Mode} (hm : w.extractLsb' 0 3 = modeCode m) :
    tickFieldsOf w = .ok ⟨w.getLsbD 6, w.getLsbD 5, w.getLsbD 4, w.getLsbD 3, m⟩ := by
  simp only [tickFieldsOf, h7, hm, modeOfCode_modeCode, Bool.false_eq_true, if_false]

theorem decodeTick_of_mode (h7 : w.getLsbD 7 = false) {m : Mode} (hm : w.extractLsb' 0 3 = modeCode m) :
    decodeTick w = .ok (selectTick ⟨w.getLsbD 6, w.getLsbD 5, w.getLsbD 4, w.getLsbD 3, m⟩) :=
  decodeTick_of_fields (tickFieldsOf_of_mode h7 hm)

/-- R108, R111: a reserved mode code. -/
theorem decodeTick_of_reserved (h7 : w.getLsbD 7 = false) (hm : modeOfCode (w.extractLsb' 0 3) = none) :
    decodeTick w = .error .tickReservedMode := by
  simp only [decodeTick, tickFieldsOf, h7, hm, Bool.false_eq_true, if_false]

theorem decodeDsp_of_bits (h7 : w.getLsbD 7 = false) :
    decodeDsp w = .ok (if w.getLsbD 6 then .dspByp else .dspFq) := by
  simp only [decodeDsp, h7, Bool.false_eq_true, if_false]
  split_ifs <;> rfl

/-- R108: the two modifier bits, from the field they make up. -/
theorem modifierBits {freeze grain : Bool} (h : w.extractLsb' 4 2 = BitVec.ofBool freeze ++ BitVec.ofBool grain) :
    w.getLsbD 5 = freeze ∧ w.getLsbD 4 = grain := by
  have hfreeze : w.getLsbD 5 = (w.extractLsb' 4 2).getLsbD 1 := by rw [BitVec.getLsbD_extractLsb']; rfl
  have hgrain : w.getLsbD 4 = (w.extractLsb' 4 2).getLsbD 0 := by rw [BitVec.getLsbD_extractLsb']; rfl
  rw [hfreeze, hgrain, h]
  cases freeze <;> cases grain <;> decide

/-- R108: the rows that `PHASE` tells apart. -/
theorem decodeTick_of_phase (h7 : w.getLsbD 7 = false) {m : Mode} {phase : Bool}
    (hm : w.extractLsb' 0 3 = modeCode m) (h3 : w.getLsbD 3 = phase) :
    decodeTick w = .ok (selectTick ⟨w.getLsbD 6, w.getLsbD 5, w.getLsbD 4, phase, m⟩) :=
  h3 ▸ decodeTick_of_mode h7 hm

/-- R108: the rows that the modifiers tell apart. -/
theorem decodeTick_of_modifiers (h7 : w.getLsbD 7 = false) {m : Mode} {phase freeze grain : Bool}
    (hm : w.extractLsb' 0 3 = modeCode m) (h3 : w.getLsbD 3 = phase)
    (hmods : w.extractLsb' 4 2 = BitVec.ofBool freeze ++ BitVec.ofBool grain) :
    decodeTick w = .ok (selectTick ⟨w.getLsbD 6, freeze, grain, phase, m⟩) := by
  obtain ⟨hfreeze, hgrain⟩ := modifierBits hmods
  rw [decodeTick_of_phase h7 hm h3, hfreeze, hgrain]

end

/-! ### Words assembled from fields -/

theorem tickWordOf_bits (f : TickFields) :
    (tickWordOf f).getLsbD 7 = false ∧ (tickWordOf f).getLsbD 6 = f.bypass ∧
      (tickWordOf f).getLsbD 5 = f.freezeAct ∧ (tickWordOf f).getLsbD 4 = f.grainAct ∧
      (tickWordOf f).getLsbD 3 = f.phase := by
  simp only [tickWordOf, BitVec.getLsbD_append]
  simp

theorem tickWordOf_modeField (f : TickFields) : (tickWordOf f).extractLsb' 0 3 = modeCode f.mode :=
  BitVec.extractLsb'_append_eq_right

/-- R108: the fields of the word assembled from them. -/
theorem tickFieldsOf_tickWordOf (f : TickFields) : tickFieldsOf (tickWordOf f) = .ok f := by
  obtain ⟨h7, h6, h5, h4, h3⟩ := tickWordOf_bits f
  rw [tickFieldsOf_of_mode h7 (tickWordOf_modeField f), h6, h5, h4, h3]

theorem decodeTick_tickWordOf (f : TickFields) : decodeTick (tickWordOf f) = .ok (selectTick f) :=
  decodeTick_of_fields (tickFieldsOf_tickWordOf f)

theorem decodeDsp_tickWordOf (f : TickFields) :
    decodeDsp (tickWordOf f) = .ok (if f.bypass then .dspByp else .dspFq) := by
  obtain ⟨h7, h6, -⟩ := tickWordOf_bits f
  rw [decodeDsp_of_bits h7, h6]

/-- Settles O4: each row from the fields it names; the other fields do not change what `selectTick` answers. -/
theorem tickDispatchTable : Obligations.TickDispatchTable := by
  intro w h7
  refine ⟨decodeTick_of_mode (m := .off) h7, decodeTick_of_mode (m := .passthrough) h7, ?recEven, ?recOdd,
    decodeTick_of_mode (m := .recordDone) h7, ?playEven, ?playOdd, ?playGrain, ?playFreeze, ?reserved,
    ?filter, ?bypass⟩
  case recEven => exact fun ⟨hmode, hphase⟩ => decodeTick_of_phase (m := .record) h7 hmode hphase
  case recOdd => exact fun ⟨hmode, hphase⟩ => decodeTick_of_phase (m := .record) h7 hmode hphase
  case playEven =>
    exact fun ⟨hmode, hphase, hmods⟩ =>
      decodeTick_of_modifiers (m := .playback) (freeze := false) (grain := false) h7 hmode hphase hmods
  case playOdd => exact fun ⟨hmode, hphase⟩ => decodeTick_of_phase (m := .playback) h7 hmode hphase
  case playGrain =>
    rintro ⟨hmode, hphase, hmods | hmods⟩
    · exact decodeTick_of_modifiers (m := .playback) (freeze := false) (grain := true) h7 hmode hphase hmods
    · exact decodeTick_of_modifiers (m := .playback) (freeze := true) (grain := true) h7 hmode hphase hmods
  case playFreeze =>
    exact fun ⟨hmode, hphase, hmods⟩ =>
      decodeTick_of_modifiers (m := .playback) (freeze := true) (grain := false) h7 hmode hphase hmods
  case reserved =>
    rintro (hmode | hmode | hmode) <;> exact decodeTick_of_reserved h7 (by rw [hmode]; rfl)
  case filter => exact fun h6 => by rw [decodeDsp_of_bits h7, h6]; rfl
  case bypass => exact fun h6 => by rw [decodeDsp_of_bits h7, h6]; rfl

end Sys2Proof.Proofs
end

section
/-! PROOFS. The choice of step K3 (R109, R143): the slot to record, the lowest playable slot, and the transition of each
mode, said once; the table of R143 is read off them. -/

namespace Sys2Proof.Proofs

open Sys2Proof.Machine

/-! ### The slots that the gestures select -/

theorem mem_allSlots (k : SlotId) : k ∈ allSlots := Config.allSlots_nSlots.2 k

/-- `one(sel)` of R109: the slot selected, and no other. -/
theorem oneSelected_eq_some (g : BitVec 8) (k : SlotId) :
    oneSelected g = some k ↔ gestSel g k = true ∧ ∀ j, gestSel g j = true → j = k := by
  have hone : oneSelected g = some k ↔ allSlots.filter (gestSel g) = [k] := by
    unfold oneSelected
    split <;> simp_all
  have hnodup : (allSlots.filter (gestSel g)).Nodup := List.Nodup.filter _ (by decide)
  rw [hone, ← List.perm_singleton, List.perm_ext_iff_of_nodup hnodup (List.nodup_singleton k)]
  simp only [List.mem_filter, mem_allSlots, true_and, List.mem_singleton]
  exact ⟨fun h => ⟨(h k).2 rfl, fun j => (h j).1⟩, fun ⟨hk, hone⟩ j => ⟨hone j, fun hj => hj ▸ hk⟩⟩

/-- R143: when a slot is to be recorded. -/
theorem recordTarget_eq_some (c : SideConds) (g : BitVec 8) (k : SlotId) :
    recordTarget c g = some k ↔ (gestRec g = true ∧ c.gapElapsed = true ∧ c.freeSpace = true) ∧
      gestSel g k = true ∧ ∀ j, gestSel g j = true → j = k := by
  rw [← oneSelected_eq_some]
  unfold recordTarget
  split_ifs with hguards <;> simp [hguards]

/-- R143: no selected slot is recorded. -/
theorem lowestPlayable_eq_none (g : BitVec 8) (recorded : PerSlot Bool) :
    lowestPlayable g recorded = none ↔ ∀ k, ¬(gestSel g k = true ∧ slotGet recorded k = true) := by
  simp [lowestPlayable, mem_allSlots]

/-- R143: a selected recorded slot with none below it is the one found first. -/
theorem lowestPlayable_eq_some {g : BitVec 8} {recorded : PerSlot Bool} {k : SlotId}
    (hsel : gestSel g k = true) (hrec : slotGet recorded k = true)
    (hlow : ∀ j, slotNumber j < slotNumber k → ¬(gestSel g j = true ∧ slotGet recorded j = true)) :
    lowestPlayable g recorded = some k := by
  rw [lowestPlayable, List.find?_eq_some_iff_append]
  refine ⟨by rw [hsel, hrec]; rfl, allSlots.take (slotNumber k), allSlots.drop (slotNumber k + 1), ?_, ?_⟩
  · cases k <;> rfl
  · intro j hj
    have hbelow : slotNumber j < slotNumber k := by
      revert hj
      cases k <;> cases j <;> decide
    simpa only [Bool.not_eq_true', ← Bool.not_eq_true, Bool.and_eq_true] using hlow j hbelow

/-! ### The transition of each mode -/

section
variable {c : SideConds} {f : ControlFields}

theorem selectTransition_recStart (hidle : f.mode = .off ∨ f.mode = .passthrough) {k : SlotId}
    (htarget : recordTarget c f.gest = some k) : selectTransition c f = .recStart k := by
  rcases hidle with hm | hm <;> simp only [selectTransition, hm, htarget]

theorem selectTransition_playStart (hidle : f.mode = .off ∨ f.mode = .passthrough) {k : SlotId}
    (htarget : recordTarget c f.gest = none) (hplay : lowestPlayable f.gest c.recorded = some k) :
    selectTransition c f = .playStart k := by
  rcases hidle with hm | hm <;> simp only [selectTransition, hm, htarget, hplay]

theorem selectTransition_idle_none (hidle : f.mode = .off ∨ f.mode = .passthrough)
    (htarget : recordTarget c f.gest = none) (hplay : lowestPlayable f.gest c.recorded = none) :
    selectTransition c f = .none := by
  rcases hidle with hm | hm <;> simp only [selectTransition, hm, htarget, hplay]

theorem selectTransition_record (hm : f.mode = .record) :
    (¬gestSel f.gest f.slot = true ∧ c.lengthElapsed = true → selectTransition c f = .recStop) ∧
      (¬(¬gestSel f.gest f.slot = true ∧ c.lengthElapsed = true) → selectTransition c f = .none) := by
  simp only [selectTransition, hm, Bool.not_eq_true]
  exact ⟨fun h => if_pos h, fun h => if_neg h⟩

theorem selectTransition_recordDone (hm : f.mode = .recordDone) :
    (¬gestRec f.gest = true → selectTransition c f = .recAck) ∧
      (gestRec f.gest = true → selectTransition c f = .none) := by
  simp only [selectTransition, hm, Bool.not_eq_true]
  exact ⟨fun h => if_pos h, fun h => if_neg (by rw [h]; decide)⟩

theorem selectTransition_playback (hm : f.mode = .playback) :
    (¬gestSel f.gest f.slot = true → selectTransition c f = .playStop) ∧
      (gestSel f.gest f.slot = true → selectTransition c f = .none) := by
  simp only [selectTransition, hm, Bool.not_eq_true]
  exact ⟨fun h => if_pos h, fun h => if_neg (by rw [h]; decide)⟩

end

/-! ### The side conditions of a state -/

/-- R35: the elapsed time in numbers, modulo 2^24. -/
theorem elapsed_eq (now t : Word24) : elapsed now t = (now.toNat + 16777216 - t.toNat) % 16777216 := by
  have := t.isLt
  rw [elapsed, BitVec.toNat_sub]
  omega

theorem sideConds_gapElapsed (s : State) : (sideConds s).gapElapsed = true ↔
    (s.msNow.toNat + 16777216 - s.tRecEnd.toNat) % 16777216 ≥ 20 := by
  rw [← elapsed_eq]
  exact decide_eq_true_iff

theorem sideConds_lengthElapsed (s : State) : (sideConds s).lengthElapsed = true ↔
    (s.msNow.toNat + 16777216 - s.tRecStart.toNat) % 16777216 ≥ 20 := by
  rw [← elapsed_eq]
  exact decide_eq_true_iff

/-- Settles O44: the choice of each mode, its conditions read from the state. -/
theorem transitionSelectionFollowsTheTable : Obligations.TransitionSelectionFollowsTheTable := by
  intro s record sel since canRecord chosen
  have htarget (k : SlotId) : recordTarget (sideConds s) s.gest = some k ↔ canRecord ∧ sel k := by
    rw [recordTarget_eq_some, sideConds_gapElapsed]
    constructor
    · rintro ⟨⟨hrec, hgap, hfree⟩, hsel, hone⟩
      exact ⟨⟨hrec, ⟨k, hsel, hone⟩, hgap, hfree⟩, hsel⟩
    · rintro ⟨⟨hrec, ⟨j, hj, hone⟩, hgap, hfree⟩, hsel⟩
      obtain rfl := hone k hsel
      exact ⟨⟨hrec, hgap, hfree⟩, hsel, hone⟩
  have hnotarget (hno : ¬canRecord) : recordTarget (sideConds s) s.gest = none :=
    Option.eq_none_iff_forall_ne_some.2 fun k hk => hno ((htarget k).1 hk).1
  refine ⟨fun hidle => ⟨fun hcan k hsel => ?start, fun hno k hsel hrec hlow => ?play, fun hno hplay => ?stay⟩,
    fun hm => ?record, selectTransition_recordDone (f := controlFields s),
    selectTransition_playback (f := controlFields s)⟩
  case start => exact selectTransition_recStart hidle ((htarget k).2 ⟨hcan, hsel⟩)
  case play => exact selectTransition_playStart hidle (hnotarget hno) (lowestPlayable_eq_some hsel hrec hlow)
  case stay => exact selectTransition_idle_none hidle (hnotarget hno) ((lowestPlayable_eq_none ..).2 hplay)
  case record =>
    have hrecord := selectTransition_record (c := sideConds s) (f := controlFields s) hm
    rwa [sideConds_lengthElapsed] at hrecord

end Sys2Proof.Proofs
end

section
/-! PROOFS. The control dispatch word of R109: its fields read back from the word assembled of them; the dispatch words
that a state assembles. -/

namespace Sys2Proof.Proofs

open Sys2Proof.Machine

@[simp] theorem slotOfBits_slotBits (k : SlotId) : slotOfBits (slotBits k) = k := by cases k <;> rfl

/-! ### The fields -/

theorem controlWordOf_gestField (f : ControlFields) : (controlWordOf f).extractLsb' 0 8 = f.gest :=
  BitVec.extractLsb'_append_eq_right

theorem controlWordOf_modeField (f : ControlFields) : (controlWordOf f).extractLsb' 8 3 = modeCode f.mode := by
  unfold controlWordOf
  rw [BitVec.extractLsb'_append_eq_of_le (by decide)]
  exact BitVec.extractLsb'_append_eq_right

theorem controlWordOf_slotField (f : ControlFields) : (controlWordOf f).extractLsb' 11 2 = slotBits f.slot := by
  unfold controlWordOf
  rw [BitVec.extractLsb'_append_eq_of_le (by decide), BitVec.extractLsb'_append_eq_of_le (by decide)]
  exact BitVec.extractLsb'_append_eq_right

theorem controlWordOf_highField (f : ControlFields) : (controlWordOf f).extractLsb' 13 3 = 0#3 := by
  unfold controlWordOf
  rw [BitVec.extractLsb'_append_eq_of_le (by decide), BitVec.extractLsb'_append_eq_of_le (by decide)]
  exact BitVec.extractLsb'_append_eq_left

/-! ### Decoding -/

/-- R109: the transition of the word assembled from the fields. -/
theorem decodeTransition_controlWordOf (c : SideConds) (f : ControlFields) :
    decodeTransition c (controlWordOf f) = .ok (selectTransition c f) := by
  unfold decodeTransition
  rw [if_pos (controlWordOf_highField f), controlWordOf_modeField, modeOfCode_modeCode, controlWordOf_slotField,
    slotOfBits_slotBits, controlWordOf_gestField]

theorem decodeUnconditional_controlWordOf (i : Instr) (f : ControlFields) :
    decodeUnconditional i (controlWordOf f) = .ok i :=
  if_pos (controlWordOf_highField f)

/-- The encoder's control words are assembled of slot 0, the mode and the gestures. -/
theorem controlWordFor_modeCode (m : Mode) (g : BitVec 8) :
    controlWordFor (modeCode m) g = controlWordOf ⟨.slot0, m, g⟩ := by
  have hslot : 0#3 ++ slotBits .slot0 = 0#5 := rfl
  simp only [controlWordFor, controlWordOf, hslot]

/-- Settles O3: the words are assembled of the state's fields. -/
theorem dispatchWordsDecodeToStateSelection : Obligations.DispatchWordsDecodeToStateSelection := fun s =>
  ⟨decodeTick_tickWordOf (tickFields s),
    decodeDsp_tickWordOf (tickFields s),
    fun c => decodeTransition_controlWordOf c (controlFields s)⟩

end Sys2Proof.Proofs
end

section
/-! PROOFS. Encodings of all three formats read back (R104, R108, R109, R113). -/

namespace Sys2Proof.Proofs

open Sys2Proof.Machine

/-- An instruction is read back from its encoding in its step, side conditions granted (log 10). -/
def ReadsBack (i : Instr) : Prop :=
  ∃ st w, i.opStep = some st ∧ encode i = some w ∧ decodeAt st sideCondsMet w = .ok i

/-! ### One lemma for each step of an operation -/

theorem StimReading.opStep {k : BitVec 2} {i : Instr} (h : StimReading k i) : i.opStep = some .stimulus := by
  cases h <;> rfl

theorem StimReading.readsBack {k : BitVec 2} {i : Instr} (h : StimReading k i) : ReadsBack i := by
  obtain ⟨w, hencode, hdecode⟩ := h.decode_encode
  exact ⟨.stimulus, .stim w, h.opStep, hencode, congrArg Except.ok hdecode⟩

/-- Fields that select a tick operation, 0 where its row leaves them free (R108). -/
def fieldsOfTickOp : TickOp → TickFields
  | .off => ⟨false, false, false, false, .off⟩
  | .pass => ⟨false, false, false, false, .passthrough⟩
  | .recEven => ⟨false, false, false, false, .record⟩
  | .recOdd => ⟨false, false, false, true, .record⟩
  | .done => ⟨false, false, false, false, .recordDone⟩
  | .playEven => ⟨false, false, false, false, .playback⟩
  | .playOdd => ⟨false, false, false, true, .playback⟩
  | .playGrain => ⟨false, false, true, false, .playback⟩
  | .playFreeze => ⟨false, true, false, false, .playback⟩

theorem selectTick_fieldsOfTickOp (op : TickOp) : selectTick (fieldsOfTickOp op) = op := by cases op <;> rfl

theorem encode_tickOp (op : TickOp) :
    op.instr.opStep = some .s1to4 ∧ encode op.instr = some (.td (tickWordOf (fieldsOfTickOp op))) := by
  cases op <;> exact ⟨rfl, rfl⟩

theorem readsBack_tickOp (op : TickOp) : ReadsBack op.instr := by
  obtain ⟨hstep, hencode⟩ := encode_tickOp op
  refine ⟨_, _, hstep, hencode, ?_⟩
  rw [decodeAt, decodeTick_tickWordOf, selectTick_fieldsOfTickOp]
  rfl

/-- Fields that select a transition with its side conditions granted (R109). -/
def fieldsOfTransition : Transition → ControlFields
  | .recStart k => ⟨.slot0, .off, gestWith k true⟩
  | .playStart k => ⟨.slot0, .off, gestWith k false⟩
  | .recStop => ⟨.slot0, .record, 0#8⟩
  | .recAck => ⟨.slot0, .recordDone, 0#8⟩
  | .playStop => ⟨.slot0, .playback, 0#8⟩
  | .none => ⟨.slot0, .off, 0#8⟩

theorem selectTransition_fieldsOfTransition (tr : Transition) :
    selectTransition sideCondsMet (fieldsOfTransition tr) = tr := by
  cases tr with
  | recStart k => cases k <;> decide
  | playStart k => cases k <;> decide
  | _ => decide

theorem encode_transition (tr : Transition) :
    tr.instr.opStep = some .k3 ∧ encode tr.instr = some (.cd (controlWordOf (fieldsOfTransition tr))) := by
  cases tr with
  | recStart k => exact ⟨rfl, by rw [fieldsOfTransition, ← controlWordFor_modeCode]; rfl⟩
  | playStart k => exact ⟨rfl, by rw [fieldsOfTransition, ← controlWordFor_modeCode]; rfl⟩
  | _ => exact ⟨rfl, rfl⟩

theorem readsBack_transition (tr : Transition) : ReadsBack tr.instr := by
  obtain ⟨hstep, hencode⟩ := encode_transition tr
  refine ⟨_, _, hstep, hencode, ?_⟩
  rw [decodeAt, decodeTransition_controlWordOf, selectTransition_fieldsOfTransition]
  rfl

theorem readsBack_dsp {i : Instr} (h : i = .dspFq ∨ i = .dspByp) : ReadsBack i := by
  rcases h with rfl | rfl <;> exact ⟨_, _, rfl, rfl, by decide⟩

/-- R109: the four unconditional steps of a control tick are read from every control word. -/
theorem readsBack_unconditional {i : Instr} (h : i = .ctDir ∨ i = .ctSpg ∨ i = .ctMod ∨ i = .ctRate) : ReadsBack i := by
  rcases h with rfl | rfl | rfl | rfl <;>
    exact ⟨_, _, rfl, rfl, decodeUnconditional_controlWordOf _ ⟨.slot0, .off, 0#8⟩⟩

/-! ### Every instruction -/

/-- Settles O1: an instruction is one of a step's or a sub-operation. -/
theorem encodedInstructionsDecodeToThemselves : Obligations.EncodedInstructionsDecodeToThemselves := by
  intro i hwf
  cases i with
  | hrd reg => exact .inl (StimReading.hrd reg).readsBack
  | hwr reg data => exact .inl (StimReading.hwr hwf).readsBack
  | atick ain => exact .inl (StimReading.atick ain).readsBack
  | reset => exact .inl StimReading.reset.readsBack
  | ctick => exact .inl StimReading.ctick.readsBack
  | hwrCtrl en clr => exact .inl (StimReading.hwrCtrl en clr).readsBack
  | atOff => exact .inl (readsBack_tickOp .off)
  | atPass => exact .inl (readsBack_tickOp .pass)
  | atRecE => exact .inl (readsBack_tickOp .recEven)
  | atRecO => exact .inl (readsBack_tickOp .recOdd)
  | atDone => exact .inl (readsBack_tickOp .done)
  | atPlayE => exact .inl (readsBack_tickOp .playEven)
  | atPlayO => exact .inl (readsBack_tickOp .playOdd)
  | atPlayG => exact .inl (readsBack_tickOp .playGrain)
  | atPlayF => exact .inl (readsBack_tickOp .playFreeze)
  | dspFq => exact .inl (readsBack_dsp (.inl rfl))
  | dspByp => exact .inl (readsBack_dsp (.inr rfl))
  | ctRecstart k => exact .inl (readsBack_transition (.recStart k))
  | ctPlaystart k => exact .inl (readsBack_transition (.playStart k))
  | ctRecstop => exact .inl (readsBack_transition .recStop)
  | ctRecack => exact .inl (readsBack_transition .recAck)
  | ctPlaystop => exact .inl (readsBack_transition .playStop)
  | ctNone => exact .inl (readsBack_transition .none)
  | ctDir => exact .inl (readsBack_unconditional (.inl rfl))
  | ctSpg => exact .inl (readsBack_unconditional (.inr (.inl rfl)))
  | ctMod => exact .inl (readsBack_unconditional (.inr (.inr (.inl rfl))))
  | ctRate => exact .inl (readsBack_unconditional (.inr (.inr (.inr rfl))))
  | ctCommit => exact .inr ⟨rfl, rfl, .inl rfl⟩
  | mapSr k c => exact .inr ⟨rfl, rfl, .inr (.inl ⟨k, c, rfl⟩)⟩
  | mapSw k c a b => exact .inr ⟨rfl, rfl, .inr (.inr (.inl ⟨k, c, a, b, rfl⟩))⟩
  | grStep k => exact .inr ⟨rfl, rfl, .inr (.inr (.inr ⟨k, rfl⟩))⟩

/-- Settles O5: each word is assembled of the fields its table names. -/
theorem writtenOutWordsDecode : Obligations.WrittenOutWordsDecode :=
  ⟨decodeStim_read 0x11#6 0#24,
    decodeStim_generalWrite (reg := 0x04#6) (data := 13#24) (by decide),
    decodeStim_write 0x0F#6 1#24,
    decodeStim_write 0x00#6 3#24,
    decodeStim_tick 0#6 0x123#24,
    decodeStim_reset 0#6 0#24,
    decodeTick_tickWordOf ⟨true, false, false, true, .record⟩,
    decodeTick_tickWordOf ⟨false, true, false, false, .playback⟩,
    decodeDsp_tickWordOf ⟨true, false, false, true, .record⟩,
    decodeTransition_controlWordOf sideCondsMet ⟨.slot0, .off, 0x83#8⟩,
    decodeTransition_controlWordOf sideCondsMet ⟨.slot1, .playback, 0x04#8⟩⟩

end Sys2Proof.Proofs
end

section
/-! PROOFS. One step runs the next stimulus word (R104, R314, R322), and a staged dispatch word is what it selects
(R108, R109, log 10). -/

namespace Sys2Proof.Proofs

open Sys2Proof.Machine

variable {s : State}

/-! ### One step -/

theorem step_of_stim_cons {w : StimWord} {rest : List StimWord} (h : s.stim = w :: rest) :
    step s = exec (decodeStim w) { s with stim := rest } := by
  simp only [step, fetchStim, h]

/-- R322: CLE without an event is idle. -/
theorem step_of_stim_nil (h : s.stim = []) : step s = .next s := by
  simp only [step, fetchStim, h]

theorem step_pushStim (w : StimWord) (s : State) : step (pushStim w s) = exec (decodeStim w) s :=
  step_of_stim_cons rfl

/-- Settles O6: with 32 bits, staging puts the word first in the list. -/
theorem stepRunsTheNextStimulusWord : Obligations.StepRunsTheNextStimulusWord :=
  ⟨fun _ _ _ h => step_of_stim_cons h, fun _ h => step_of_stim_nil h, fun s w => step_pushStim (BitVec.ofNat 32 w) s⟩

/-! ### A staged tick word -/

/-- R108: running the selected operation is executing its row. -/
theorem runTickOp_eq_exec (op : TickOp) (s : State) : runTickOp op s = exec op.instr s := by cases op <;> rfl

theorem decodeStim_atickWord (a : Sample) : decodeStim (atickWord a) = .atick a :=
  (decodeStim_tick _ _).trans (congrArg Instr.atick BitVec.extractLsb'_append_eq_right)

/-- R108, R294: an `ATICK` at the level already held, with ticks enabled, runs the row the state selects. -/
theorem exec_atick_of_enabled (h : s.tickEn = true) :
    exec (.atick s.ain) s = exec (selectTick (tickFields s)).instr s := by
  rw [← runTickOp_eq_exec]
  exact if_pos h

/-- R108: the fields of a word that has any. -/
theorem tickFieldsOf_eq_ok {w : TickWord} {f : TickFields} (h : tickFieldsOf w = .ok f) :
    modeOfCode (w.extractLsb' 0 3) = some f.mode ∧ w.getLsbD 6 = f.bypass ∧ w.getLsbD 5 = f.freezeAct ∧
      w.getLsbD 4 = f.grainAct ∧ w.getLsbD 3 = f.phase := by
  unfold tickFieldsOf at h
  split_ifs at h
  split at h
  next m hm => cases h; exact ⟨hm, rfl, rfl, rfl, rfl⟩
  next => cases h

theorem selectTick_of_decodeTick {w : TickWord} {op : TickOp} (h : decodeTick w = .ok op) :
    ∃ f, tickFieldsOf w = .ok f ∧ selectTick f = op := by
  unfold decodeTick at h
  split at h
  next f hf => cases h; exact ⟨f, hf, rfl⟩
  next => cases h

/-- R108: the staged state has the fields of the word. -/
theorem tickFields_stageTick {w : TickWord} {f : TickFields} (h : tickFieldsOf w = .ok f) (s : State) :
    tickFields (stageTick w s) = f := by
  obtain ⟨hmode, hbypass, hfreeze, hgrain, hphase⟩ := tickFieldsOf_eq_ok h
  have hgest : gestBypass (stageTick w s).gest = w.getLsbD 6 := by
    simp only [stageTick, pushStim, gestBypass, BitVec.getLsbD_append]
    simp
  have hcode : (stageTick w s).mode = f.mode := by simp only [stageTick, pushStim, hmode, Option.getD_some]
  simp only [tickFields, hgest, hcode, hbypass]
  simp only [stageTick, pushStim, hfreeze, hgrain, hphase]

theorem step_stageTick {w : TickWord} {op : TickOp} (h : decodeTick w = .ok op) (s : State) :
    step (stageTick w s) = exec op.instr { stageTick w s with stim := s.stim } := by
  obtain ⟨f, hf, rfl⟩ := selectTick_of_decodeTick h
  have hfields : tickFields { stageTick w s with stim := s.stim } = f := tickFields_stageTick hf s
  rw [step_of_stim_cons (s := stageTick w s) (w := atickWord s.ain) rfl, decodeStim_atickWord, ← hfields]
  exact exec_atick_of_enabled rfl

/-! ### A staged control word -/

theorem decodeStim_ctickWord : decodeStim ctickWord = .ctick := by decide

/-- R109: a word that names a mode is staged with its fields and every side condition granted. -/
theorem stageControl_of_mode {w : ControlWord} {m : Mode} (hm : modeOfCode (w.extractLsb' 8 3) = some m) (s : State) :
    stageControl w s = pushStim ctickWord { s with
      gest := w.extractLsb' 0 8
      slot := slotOfBits (w.extractLsb' 11 2)
      mode := m
      tRecStart := guardPassed s
      tRecEnd := guardPassed s
      freeSpace := true :: s.freeSpace
      recorded := recordedWith (w.extractLsb' 0 8) s.recorded } := by
  simp only [stageControl, hm]

/-- R109: a reserved mode code is staged in OFF, just after a recording and with no slot recorded. -/
theorem stageControl_of_reserved {w : ControlWord} (hm : modeOfCode (w.extractLsb' 8 3) = none) (s : State) :
    stageControl w s = pushStim ctickWord { s with
      gest := w.extractLsb' 0 8
      slot := slotOfBits (w.extractLsb' 11 2)
      mode := .off
      tRecEnd := s.msNow
      recorded := ⟨false, false, false, false⟩ } := by
  simp only [stageControl, hm]

theorem stageControl_stim (w : ControlWord) (s : State) : (stageControl w s).stim = ctickWord :: s.stim := by
  cases hm : modeOfCode (w.extractLsb' 8 3) with
  | none => rw [stageControl_of_reserved hm]; rfl
  | some m => rw [stageControl_of_mode hm]; rfl

theorem step_stageControl (w : ControlWord) (s : State) :
    step (stageControl w s) = exec .ctick { stageControl w s with stim := s.stim } := by
  rw [step_of_stim_cons (stageControl_stim w s), decodeStim_ctickWord]

/-- R35: the guard staged has just passed. -/
theorem elapsed_guardPassed (s : State) : elapsed s.msNow (guardPassed s) = 20 := by
  rw [elapsed, guardPassed, sub_sub_cancel]
  rfl

/-- Marking the selected slots as recorded makes the same slot playable as marking all. -/
theorem lowestPlayable_recordedWith (g : BitVec 8) (recorded : PerSlot Bool) :
    lowestPlayable g (recordedWith g recorded) = lowestPlayable g sideCondsMet.recorded := by
  have hmarked (k : SlotId) : slotGet (recordedWith g recorded) k = (slotGet recorded k || gestSel g k) := by
    cases k <;> rfl
  have hall (k : SlotId) : slotGet sideCondsMet.recorded k = true := by cases k <;> rfl
  have hslot (k : SlotId) : (gestSel g k && slotGet (recordedWith g recorded) k) =
      (gestSel g k && slotGet sideCondsMet.recorded k) := by
    rw [hmarked, hall]
    cases gestSel g k <;> simp
  simp only [lowestPlayable, hslot]

/-- R109: side conditions that agree on the guards and on the playable slot select the same transition. -/
theorem selectTransition_congr {c d : SideConds} {f : ControlFields} (hgap : c.gapElapsed = d.gapElapsed)
    (hlength : c.lengthElapsed = d.lengthElapsed) (hspace : c.freeSpace = d.freeSpace)
    (hplay : lowestPlayable f.gest c.recorded = lowestPlayable f.gest d.recorded) :
    selectTransition c f = selectTransition d f := by
  simp only [selectTransition, recordTarget, hgap, hlength, hspace, hplay]

/-- R109: a word that names a mode selects, as staged, what it selects with its side conditions granted. -/
theorem selectTransition_stageControl_mode {w : ControlWord} {m : Mode}
    (hm : modeOfCode (w.extractLsb' 8 3) = some m) (s : State) :
    selectTransition (sideConds (stageControl w s)) (controlFields (stageControl w s)) =
      selectTransition sideCondsMet ⟨slotOfBits (w.extractLsb' 11 2), m, w.extractLsb' 0 8⟩ := by
  have hguard : decide (elapsed s.msNow (guardPassed s) ≥ Config.debounceMs) = true := by
    rw [elapsed_guardPassed]; rfl
  rw [stageControl_of_mode hm]
  exact selectTransition_congr hguard hguard rfl (lowestPlayable_recordedWith _ _)

/-- R109: the state staged for a reserved mode code selects `CT.NONE`. -/
theorem selectTransition_stageControl_reserved {w : ControlWord} (hm : modeOfCode (w.extractLsb' 8 3) = none)
    (s : State) : selectTransition (sideConds (stageControl w s)) (controlFields (stageControl w s)) = .none := by
  have hguard : decide (elapsed s.msNow s.msNow ≥ Config.debounceMs) = false := by
    rw [elapsed, BitVec.sub_self]; rfl
  rw [stageControl_of_reserved hm]
  have htarget {c : SideConds} (hgap : c.gapElapsed = false) (g : BitVec 8) : recordTarget c g = none :=
    if_neg fun ⟨_, hmet, _⟩ => Bool.false_ne_true (hgap.symm.trans hmet)
  refine selectTransition_idle_none (.inl rfl) (htarget hguard _) ((lowestPlayable_eq_none ..).2 fun k hk => ?_)
  obtain ⟨-, hrecorded⟩ := hk
  cases k <;> exact Bool.false_ne_true hrecorded

theorem selectTransition_stageControl {w : ControlWord} {tr : Transition}
    (h : decodeTransition sideCondsMet w = .ok tr) (s : State) :
    selectTransition (sideConds (stageControl w s)) (controlFields (stageControl w s)) = tr := by
  unfold decodeTransition at h
  split_ifs at h
  split at h
  next m hm =>
    cases h
    exact selectTransition_stageControl_mode hm s
  next hm =>
    cases h
    exact selectTransition_stageControl_reserved hm s

/-- Settles O7: the staged state has the fields of the tick word, and of the control word with the guards passed. -/
theorem stagedDispatchWordsAreTheNextStep : Obligations.StagedDispatchWordsAreTheNextStep :=
  ⟨fun s _ _ h => step_stageTick h s,
    fun s w _ h => ⟨step_stageControl (BitVec.ofNat 16 w) s, selectTransition_stageControl h s⟩⟩

end Sys2Proof.Proofs
end

section
/-! PROOFS. `MODE` over one step (R154): the transitions T1 to T6 come from the choice of step K3 and from the capacity
check of an odd record tick; every other operation leaves `MODE`. -/

namespace Sys2Proof.Proofs

open Sys2Proof.Machine

variable {s t : State}

/-- What any operation but RESET can do to `MODE`: leave it, or take one of T1 to T6 (R154). -/
def ModeEffect (m n : Mode) : Prop := n = m ∨ ModeTransition m n

/-! ### The audio tick -/

theorem mappedRead_mode {k : SlotId} {c : Int} {r : (Sample × Sample) × State} (hr : mappedRead s k c = some r) :
    r.2.mode = s.mode := by
  obtain ⟨-, -, hlog⟩ := (mappedRead_eq_some ..).1 hr
  rw [hlog, logEvent_mode]

theorem readAndSample_mode (h : readAndSample s = some t) : t.mode = s.mode := by
  obtain ⟨r, hread, rfl⟩ := (readAndSample_eq_some ..).1 h
  exact mappedRead_mode hread

theorem grainStep_mode {k : SlotId} (h : grainStep s k = some t) : t.mode = s.mode := by
  obtain ⟨r, hread, rfl⟩ := (grainStep_eq_some ..).1 h
  simpa using mappedRead_mode hread

theorem playSubstituted_mode (h : playSubstituted s = some t) : t.mode = s.mode := by
  obtain ⟨u, hread, hgrain⟩ := (playSubstituted_eq_some ..).1 h
  rw [grainStep_mode hgrain, readAndSample_mode hread, emitOutput_mode, beginTick_mode]

/-- R146, R182: the capacity check stays in the mode or ends the recording. -/
theorem checkOverflow_mode (s : State) : (checkOverflow s).mode = s.mode ∨ (checkOverflow s).mode = .recordDone := by
  unfold checkOverflow
  split
  · exact .inr rfl
  · exact .inl rfl

theorem recordPair_mode (h : recordPair s = some t) : t.mode = s.mode ∨ t.mode = .recordDone := by
  obtain ⟨u, hwrite, rfl⟩ := (recordPair_eq_some ..).1 h
  have hmode : (advanceWrite u).mode = s.mode := by
    obtain ⟨-, rfl⟩ := (mappedWrite_eq_some ..).1 hwrite
    simp
  exact hmode ▸ checkOverflow_mode (advanceWrite u)

/-- T3 is the only transition of an audio tick, and only an odd record tick takes it. -/
theorem audioTick_modeEffect (h : audioTick s = .next t) : ModeEffect s.mode t.mode := by
  cases audioTick_effect h with
  | pass => exact .inl (by simp)
  | recEven => exact .inl (by simp)
  | recOdd hm hpair =>
    rcases recordPair_mode hpair with hsame | hdone
    · exact .inl (by simp [hsame])
    · refine .inr ?_
      rw [hm, finishTick_mode, hdone]
      exact .recordDone
  | done => exact .inl (by simp)
  | playEven hread => exact .inl (by simp [readAndSample_mode hread])
  | playOdd => exact .inl (by simp)
  | substituted hgrain => exact .inl (by simp [playSubstituted_mode hgrain])

/-! ### The control tick -/

/-- R143, R154: a transition chosen in its mode is one of T1, T2 and T4 to T6. -/
theorem runTransition_modeEffect {tr : Transition} (h : ChosenIn s.mode tr) :
    ModeEffect s.mode (runTransition tr s).mode := by
  generalize hmode : s.mode = m at h ⊢
  cases h with
  | recStart hidle k => rcases hidle with rfl | rfl; exacts [.inr .offRecord, .inr .passRecord]
  | playStart hidle k => rcases hidle with rfl | rfl; exacts [.inr .offPlay, .inr .passPlay]
  | recStop => exact .inr .recordPass
  | recAck => exact .inr .donePass
  | playStop => exact .inr .playPass
  | none => exact .inl hmode

/-- R140: of the five steps of a control tick only K3 writes `MODE`. -/
theorem controlTick_modeEffect (s : State) : ModeEffect s.mode (controlTick s).mode := by
  obtain ⟨tr, hchosen, heq⟩ := stepK3_chosen (updateSpg (updateDir s))
  rw [controlTick, updateRate_mode, updateModifiers_mode, heq]
  exact runTransition_modeEffect hchosen

/-! ### One step -/

theorem stimEffect_modeEffect (h : StimEffect s t) : ModeEffect s.mode t.mode := by
  cases h with
  | hostRead => exact .inl rfl
  | hostWrite r d => exact .inl (by cases r <;> rfl)
  | ctrlBits => exact .inl rfl
  | release _ htick =>
    have heffect := audioTick_modeEffect htick
    exact heffect
  | held => exact .inl rfl
  | accepted _ htick =>
    have heffect := audioTick_modeEffect htick
    exact heffect
  | control => exact controlTick_modeEffect s

/-- Settles O52: a step is idle, a reset, or one of the effects of a stimulus word. -/
theorem modeChangesOnlyAlongTransitions : Obligations.ModeChangesOnlyAlongTransitions := by
  intro s t ht
  rcases step_effect ht with rfl | ⟨w, rest, hstim, ⟨hreset, rfl⟩ | heffect⟩
  · exact .inl rfl
  · exact .inr (.inr ⟨congrArg State.mode (resetSequence_eq _), w, rest, hstim, hreset⟩)
  · rcases stimEffect_modeEffect heffect with hsame | htransition
    · exact .inl hsame
    · exact .inr (.inl htransition)

end Sys2Proof.Proofs
end

section
/-! PROOFS. The commit (R145, R147, R151): its whole next state, the boundary it persists, and the descending slot that
is full (R348). -/

namespace Sys2Proof.Proofs

open Sys2Proof.Machine

/-- R145, R147: the three rows of the commit. -/
theorem exec_commit {i : Instr} (h : i = .ctCommit ∨ i = .ctRecstop ∨ i = .ctRecack) (s : State) :
    exec i s = .next (commit s) := by
  rcases h with rfl | rfl | rfl <;> rfl

/-- R75, R102: persisting a boundary lets its three bytes cross the port, most significant first. -/
theorem persistEnd_trace (k : SlotId) (s : State) : (persistEnd k s).trace = s.trace ++
    [.nvWrite (3 * slotNumber k) ((slotGet s.endAddr k).extractLsb' 16 8),
      .nvWrite (3 * slotNumber k + 1) ((slotGet s.endAddr k).extractLsb' 8 8),
      .nvWrite (3 * slotNumber k + 2) ((slotGet s.endAddr k).extractLsb' 0 8)] := by
  simp [persistEnd, nvWrite]

/-- R151: the commit writes the slot table, `NV`, `T_REC_END` and `MODE`, and what crosses the port. -/
theorem commit_eq (s : State) : commit s =
    { s with
      endAddr := (commit s).endAddr, recorded := (commit s).recorded, nv := (commit s).nv
      tRecEnd := s.msNow, mode := .passthrough
      trace := s.trace ++
        [.nvWrite (3 * slotNumber s.slot) ((s.wcur.setWidth 24).extractLsb' 16 8),
          .nvWrite (3 * slotNumber s.slot + 1) ((s.wcur.setWidth 24).extractLsb' 8 8),
          .nvWrite (3 * slotNumber s.slot + 2) ((s.wcur.setWidth 24).extractLsb' 0 8)] } := by
  have htrace := persistEnd_trace s.slot { s with
    endAddr := slotSet s.endAddr s.slot (s.wcur.setWidth 24), recorded := slotSet s.recorded s.slot true }
  simp only [slotGet_slotSet_same] at htrace
  rw [← htrace]
  rfl

/-- R8, R151: the truncation to a boundary keeps the value of a cursor that is not negative. -/
theorem setWidth_cursor_toNat_of_nonneg {c : Cursor} (h : 0 ≤ c.toInt) : ((c.setWidth 24).toNat : Int) = c.toInt := by
  rw [BitVec.toNat_setWidth, BitVec.toInt_eq_toNat_cond] at *
  split_ifs at * <;> omega

/-- R75, R151: the boundary that the commit leaves in `NV` is the one in the register. -/
theorem storedEnd_commit {s : State} (h : memWf Config.nvOffsets s.nv = true) :
    storedEnd (commit s) s.slot = s.wcur.setWidth 24 := by
  rw [storedEnd_eq, commit_nv, boundaryAt_writeBoundary_same h]

/-- Settles O47, from the whole next state of the commit. -/
theorem commitPersistsTheBoundary : Obligations.CommitPersistsTheBoundary := by
  intro s i hi
  refine ⟨commit s, exec_commit hi s, commit_eq s, ?_, ?_, fun hpos => ?_, fun k hk => ⟨?_, ?_⟩, fun a ha => ?_,
    storedEnd_commit⟩
  · rw [commit_endAddr, slotGet_slotSet_same]
  · rw [commit_recorded, slotGet_slotSet_same]
  · rw [commit_endAddr, slotGet_slotSet_same, setWidth_cursor_toNat_of_nonneg hpos]
  · rw [commit_endAddr, slotGet_slotSet_other _ hk]
  · rw [commit_recorded, slotGet_slotSet_other _ hk]
  · rw [commit_nv, memRead_writeBoundary_other ha]

/-- R47: the recorded flag after a reset says that the stored boundary is not 0. -/
theorem resetSequence_recorded (s : State) (k : SlotId) :
    slotGet (resetSequence s).recorded k = decide ((storedEnd s k).toNat ≠ 0) := by
  rw [resetSequence_eq, slotGet_loadedFlags]

/-- R22: the origin of a descending slot is at `DEV_TOP`, so boundary 0 is its full extent. -/
theorem extent_descending_zero {k : SlotId} (h : k = .slot1 ∨ k = .slot3) : extent k 0 = 65535 := by
  rcases h with rfl | rfl <;> rfl

/-- Settles O57: boundary 0 is the full extent of a descending slot, and what reset takes for an unrecorded slot. -/
theorem fullDescendingSlotReloadsUnrecorded : Obligations.FullDescendingSlotReloadsUnrecorded := by
  intro s hslot hfull hnv
  refine ⟨commit s, resetSequence (commit s), rfl, rfl, ?_, ?_, ?_⟩
  · rw [commit_recorded, slotGet_slotSet_same]
  · have hend : endOf (commit s) s.slot = 0 := by
      rw [endOf, commit_endAddr, slotGet_slotSet_same, hfull]
      rfl
    rw [hend, extent_descending_zero hslot]
  · rw [resetSequence_recorded, storedEnd_commit hnv, hfull]
    rfl

end Sys2Proof.Proofs
end

section
/-! PROOFS. The rows of the control tick (R140 to R153), and the tick as its five steps. -/

namespace Sys2Proof.Proofs

open Sys2Proof.Machine

/-! ### K1 and K2 -/

/-- R9: `sat` to a range from 1 is the larger of 1 and the value, cut at the top. -/
theorem sat_one_eq {hi : Nat} (h : 1 ≤ hi) (x : Nat) : sat x 1 hi = min hi (max 1 x) := by
  unfold sat
  split_ifs <;> omega

/-- R142: the window length survives the write to its register. -/
theorem updateSpg_spg_toNat (s : State) : (updateSpg s).spg.toNat =
    spgCalc s.stretch.toNat s.grainSize.toNat s.rate.toNat s.recRate.toNat := by
  obtain ⟨-, hfits⟩ := spgCalc_mem s.stretch.toNat s.grainSize.toNat s.rate.toNat s.recRate.toNat
  show (BitVec.ofNat 24 _).toNat = _
  rw [BitVec.toNat_ofNat, Nat.mod_eq_of_lt (by omega)]

/-- Settles O45: the window length is the saturated quotient, which its register holds. -/
theorem directionAndWindowLengthAreRecomputed : Obligations.DirectionAndWindowLengthAreRecomputed :=
  fun s => ⟨rfl, (updateSpg s).spg, rfl, (updateSpg_spg_toNat s).trans (sat_one_eq (by decide) _)⟩

/-! ### The transitions of K3 -/

theorem ChosenIn.idle_of_recStart {m : Mode} {k : SlotId} (h : ChosenIn m (.recStart k)) :
    m = .off ∨ m = .passthrough := by
  cases h with
  | recStart idle => exact idle

/-- R143: a recording starts on the record target. -/
theorem recordTarget_of_selectTransition {c : SideConds} {f : ControlFields} {k : SlotId}
    (h : selectTransition c f = .recStart k) : recordTarget c f.gest = some k := by
  have hidle : f.mode = .off ∨ f.mode = .passthrough := (h ▸ selectTransition_chosenIn c f).idle_of_recStart
  cases htarget : recordTarget c f.gest with
  | some j => rw [selectTransition_recStart hidle htarget] at h; cases h; rfl
  | none =>
    cases hplay : lowestPlayable f.gest c.recorded with
    | some j => rw [selectTransition_playStart hidle htarget hplay] at h; cases h
    | none => rw [selectTransition_idle_none hidle htarget hplay] at h; cases h

/-- R22, R144: the write cursor starts at the origin itself, which its register holds. -/
theorem toCursor_origin_toInt (k : SlotId) : (toCursor (origin k)).toInt = origin k :=
  toCursor_toInt_of_dist (k := k) (by simp) (by simp)

/-- R35, R144: before 20 ms no recording starts over a `T_REC_END` still at its reset value. -/
theorem gapElapsed_of_reset_tRecEnd {s : State} (hend : s.tRecEnd = 0#24) (hearly : s.msNow.toNat < 20) :
    ¬ (sideConds s).gapElapsed = true := by
  rw [sideConds_gapElapsed, hend, BitVec.toNat_ofNat]
  omega

/-- Settles O46: the cursor register holds the origin, and a recording needs the guard time. -/
theorem recordStartSeedsTheWriteCursor : Obligations.RecordStartSeedsTheWriteCursor := by
  refine ⟨fun s k => ⟨toCursor (origin k), rfl, ?_, ?_⟩, fun s k hend hearly hstart => ?_⟩
  · rintro (rfl | rfl) <;> exact toCursor_origin_toInt _
  · rintro (rfl | rfl) <;> exact toCursor_origin_toInt _
  · obtain ⟨⟨-, hgap, -⟩, -⟩ := (recordTarget_eq_some ..).1 (recordTarget_of_selectTransition hstart)
    exact gapElapsed_of_reset_tRecEnd hend hearly hgap

theorem startOffset_forward (k : SlotId) (e : Int) : startOffset k false e = origin k := rfl

/-- R173: in reverse an empty slot starts at its origin. -/
theorem startOffset_reverse_empty {k : SlotId} {e : Int} (h : e = origin k) :
    startOffset k true e = origin k := if_pos h

/-- R173: in reverse a recorded slot starts at its last record. -/
theorem startOffset_reverse_recorded {k : SlotId} {e : Int} (h : e ≠ origin k) :
    startOffset k true e = e - 3 * sigma k := by
  rw [mul_comm]
  exact if_neg h

/-- Settles O48, by the three cases of the start of R173. -/
theorem playStartSeedsTheCursors : Obligations.PlayStartSeedsTheCursors := by
  intro s k
  refine ⟨toCursor (startOf s k), rfl, fun hdir => ?forward, fun ⟨hdir, hempty⟩ => ?empty,
    fun ⟨hdir, hrecorded⟩ => ?last⟩
  case forward => rw [startOf, hdir, startOffset_forward]; rfl
  case empty => rw [startOf, hdir, startOffset_reverse_empty hempty]; rfl
  case last => rw [startOf, hdir, startOffset_reverse_recorded hrecorded]; rfl

/-- Settles O49. -/
theorem playStopWritesOnlyTheMode : Obligations.PlayStopWritesOnlyTheMode := fun _ => ⟨rfl, rfl⟩

/-! ### K4 and K5 -/

/-- R152: on the rising edge of freeze the anchor is captured and the grain window restarts. -/
theorem updateModifiers_of_rising {s : State} (h : freezeWanted s = true ∧ s.freezeAct = false) :
    updateModifiers s = { s with
      anchor := s.pcur, gaddr := s.pcur, gcnt := 0#24
      grainAct := decide (s.mode = .playback) && gestGrain s.gest, freezeAct := freezeWanted s } := by
  rw [updateModifiers, armFreeze, if_pos h]

/-- R152: without a rising edge only the two modifier bits are written. -/
theorem updateModifiers_of_not_rising {s : State} (h : ¬(freezeWanted s = true ∧ s.freezeAct = false)) :
    updateModifiers s = { s with
      grainAct := decide (s.mode = .playback) && gestGrain s.gest, freezeAct := freezeWanted s } := by
  rw [updateModifiers, armFreeze, if_neg h]

/-- R152: the grain gesture keeps freeze from being wanted. -/
theorem not_grain_and_freezeWanted (s : State) :
    ¬((decide (s.mode = .playback) && gestGrain s.gest) = true ∧ freezeWanted s = true) := by
  rw [freezeWanted_iff, Bool.and_eq_true]
  rintro ⟨⟨-, hgrain⟩, -, -, -, hno⟩
  exact Bool.false_ne_true (hno.symm.trans hgrain)

/-- Settles O50: `f` of the statement is `freezeWanted`, and `CT.MOD` has the two cases of its rising edge. -/
theorem modifiersAreLatched : Obligations.ModifiersAreLatched := fun s =>
  ⟨fun hrising => congrArg Host.Outcome.next (updateModifiers_of_rising hrising),
    fun hno => congrArg Host.Outcome.next (updateModifiers_of_not_rising hno), not_grain_and_freezeWanted s⟩

/-- Settles O51: the modes of the second clause are the three that the first leaves out. -/
theorem tickRateFollowsRateByMode : Obligations.TickRateFollowsRateByMode := by
  refine fun s => ⟨fun hm => congrArg Host.Outcome.next (if_pos hm), fun hm => congrArg Host.Outcome.next (if_neg ?_)⟩
  rcases hm with hm | hm | hm <;> simp [hm]

/-! ### The whole tick -/

/-- R143: executing the row of a transition is running the transition. -/
theorem exec_transition (tr : Transition) (s : State) : exec tr.instr s = .next (runTransition tr s) := by
  cases tr <;> rfl

/-- Settles O43: the states between are those after `CT.DIR`, `CT.SPG`, the transition chosen there, and `CT.MOD`. -/
theorem controlTickRunsFiveSteps : Obligations.ControlTickRunsFiveSteps := fun s =>
  ⟨updateDir s, updateSpg (updateDir s), _, updateModifiers (stepK3 (updateSpg (updateDir s))), controlTick s,
    rfl, rfl, exec_transition _ _, rfl, rfl, rfl⟩

end Sys2Proof.Proofs
end

section
/-! PROOFS. The mapper's bounds (R182, R183) and its transactions (R177 to R181): which cursors name a record inside the
device, and what a mapped read and a mapped write do. -/

namespace Sys2Proof.Proofs

open Sys2Proof.Machine

variable {s t : State} {k : SlotId}

/-! ### Cursors -/

/-- R72, R87: the bases that `StoreRead` and `StoreWrite` are defined for. -/
theorem baseInRange_iff (b : Int) : baseInRange b = true ↔ 0 ≤ b ∧ b ≤ 65533 := decide_eq_true_iff

/-- R182: a write cursor advances past the last record that fits from distance 65532 alone. -/
theorem overflow_advance_iff {c : Int} (hc : ValidWriteCursor k c) :
    overflow k (c + 3 * sigma k) = true ↔ distOf k c = 65532 := by
  obtain ⟨hnonneg, hle, hthree⟩ := hc
  have hfull : overflow k (c + 3 * sigma k) = true ↔ 65533 < distOf k (c + 3 * sigma k) := decide_eq_true_iff
  rw [hfull, mul_comm, distOf_add_sigma_mul]
  omega

/-- R182: from distance 65532 a write cursor advances to the other end of the device. -/
theorem advance_of_last {c : Int} (h : distOf k c = 65532) : c + 3 * sigma k = 65535 - origin k := by
  rw [cursor_of_dist k c, h]
  cases k <;> rfl

/-- Settles O41. -/
theorem overflowExactlyAtTheBoundary : Obligations.OverflowExactlyAtTheBoundary :=
  fun _ _ hc => ⟨overflow_advance_iff hc, advance_of_last⟩

/-- R183: in an empty slot the one read cursor is the origin. -/
theorem validReadCursor_empty_iff {e c : Int} (h : extent k e = 0) : ValidReadCursor k e c ↔ c = origin k := by
  have horigin : distOf k c = 0 ↔ c = origin k := extent_eq_zero_iff k c
  rw [← horigin, ValidReadCursor, h]
  omega

/-- Settles O38: a valid cursor is at a distance that keeps its record inside the device. -/
theorem readCursorsStayValid : Obligations.ReadCursorsStayValid := by
  refine fun k e he => ⟨startOffset_valid he, fun c hc => ?read, fun c hc => ?write,
    fun hempty c => validReadCursor_empty_iff hempty⟩
  case read =>
    obtain ⟨hlow, hhigh⟩ := (baseInRange_iff _).1 (baseInRange_of_validReadCursor he hc)
    exact ⟨hlow, hhigh, fun rev => wrapCursor_effStep_valid he rev hc⟩
  case write =>
    obtain ⟨hnonneg, hle, -⟩ := hc
    exact (baseInRange_iff _).1 (baseInRange_of_dist hnonneg (by omega))

/-! ### Packing -/

/-- R178: the values of the two samples of a record. -/
theorem unpack_toNat (p : Packed) : (unpack p).1.toNat = 16 * p.y0.toNat + p.y1.toNat / 16 ∧
    (unpack p).2.toNat = 256 * (p.y1.toNat % 16) + p.y2.toNat := by
  have hmiddle := p.y1.isLt
  simp only [unpack, toNat_append_eq, BitVec.extractLsb'_toNat, Nat.shiftRight_eq_div_pow]
  omega

/-- R177: the values of the three bytes of a pair. -/
theorem pack_toNat (a b : Sample) : (pack a b).y0.toNat = a.toNat / 16 ∧
    (pack a b).y1.toNat = 16 * (a.toNat % 16) + b.toNat / 256 ∧ (pack a b).y2.toNat = b.toNat % 256 := by
  have ha := a.isLt
  have hb := b.isLt
  simp only [pack, toNat_append_eq, BitVec.extractLsb'_toNat, Nat.shiftRight_eq_div_pow]
  omega

/-- R179: the two samples of a record pack into its three bytes. -/
theorem pack_unpack (p : Packed) : pack (unpack p).1 (unpack p).2 = p := by
  obtain ⟨hfirst, hsecond⟩ := unpack_toNat p
  obtain ⟨h0, h1, h2⟩ := pack_toNat (unpack p).1 (unpack p).2
  have hy1 := p.y1.isLt
  have hy2 := p.y2.isLt
  have e0 : (pack (unpack p).1 (unpack p).2).y0 = p.y0 := BitVec.eq_of_toNat_eq (by omega)
  have e1 : (pack (unpack p).1 (unpack p).2).y1 = p.y1 := BitVec.eq_of_toNat_eq (by omega)
  have e2 : (pack (unpack p).1 (unpack p).2).y2 = p.y2 := BitVec.eq_of_toNat_eq (by omega)
  exact Packed.mk.injEq .. ▸ ⟨e0, e1, e2⟩

/-! ### The mapped transactions -/

theorem mappedWrite_completes {c : Int} (h : baseInRange (recordBase k c) = true) (s : State) (a b : Sample) :
    ∃ t, mappedWrite s k c a b = some t :=
  ⟨_, (mappedWrite_eq_some ..).2 ⟨h, rfl⟩⟩

/-- R181: a mapped write writes one device and the trace. -/
theorem mappedWrite_eq {c : Int} {a b : Sample} (h : mappedWrite s k c a b = some t) :
    t = { s with
      storeA := t.storeA, storeB := t.storeB
      trace := s.trace ++ [.storeWrite (chipOf k) (recordBase k c).toNat (pack a b).y0 (pack a b).y1
        (pack a b).y2] } := by
  obtain ⟨-, rfl⟩ := (mappedWrite_eq_some ..).1 h
  cases chipOf k <;> rfl

/-- R181: a mapped write leaves the other device, the bytes of its own device outside the record, and the record is the
packed pair. -/
theorem mappedWrite_devices {c : Int} {a b : Sample} (h : mappedWrite s k c a b = some t) :
    (∀ d, d ≠ chipOf k → deviceOf t d = deviceOf s d) ∧
    (∀ x, x < (recordBase k c).toNat ∨ (recordBase k c).toNat + 2 < x →
      memRead (deviceOf t (chipOf k)) x = memRead (deviceOf s (chipOf k)) x) ∧
    (memWf Config.devBytes (deviceOf s (chipOf k)) = true →
      recordAt (deviceOf t (chipOf k)) (recordBase k c).toNat = pack a b) := by
  obtain ⟨hbase, rfl⟩ := (mappedWrite_eq_some ..).1 h
  simp only [deviceOf_logEvent, deviceOf_withDevice_same]
  exact ⟨fun d hd => deviceOf_withDevice_other s hd _, fun x hx => memRead_writeRecord_other hx _ _,
    recordAt_writeRecord (toNat_add_two_lt_of_baseInRange hbase) _⟩

/-- Settles O34: the two identities, and the read where a write went. -/
theorem packedSamplesRoundTrip : Obligations.PackedSamplesRoundTrip := by
  refine ⟨unpack_pack, pack_unpack, fun s k c a b hin hwf => ?_⟩
  obtain ⟨t, hwrite⟩ := mappedWrite_completes (k := k) (c := c.toInt) hin s a b
  exact ⟨t, congrArg outcomeOf hwrite, mappedRead_mappedWrite hwf hwrite⟩

/-- Settles O35. -/
theorem mappedWriteChangesOneRecord : Obligations.MappedWriteChangesOneRecord := by
  intro s k c a b base hbase
  obtain ⟨t, hwrite⟩ := mappedWrite_completes ((baseInRange_iff _).2 hbase) s a b
  exact ⟨t, congrArg outcomeOf hwrite, mappedWrite_eq hwrite, mappedWrite_devices hwrite⟩

/-- Settles O36: the read gives the unpacked record and the state with the read in its trace. -/
theorem mappedReadWritesNothing : Obligations.MappedReadWritesNothing := by
  intro s k c base record hbase
  have hread := (mappedRead_eq_some s k c.toInt (_, _)).2 ⟨(baseInRange_iff _).2 hbase, rfl, rfl⟩
  exact ⟨congrArg outcomeOf (congrArg (Option.map Prod.snd) hread), _, hread, unpack_toNat _⟩

end Sys2Proof.Proofs
end

section
/-! PROOFS. The playback loop (R184, R353): the cursor moves one record per advance until the advance that passes the
boundary, which re-seeds it. -/

namespace Sys2Proof.Proofs

open Sys2Proof.Machine

variable {k : SlotId} {rev : Bool} {e : Int}

/-- One advance of the playback cursor with its wraparound (R172, R175). -/
def playAdvance (k : SlotId) (rev : Bool) (e c : Int) : Int := wrapCursor k rev e (c + effStep k rev)

/-- R172: `j` steps of one transaction in the direction of playback, in distances. -/
theorem distOf_add_mul_effStep (k : SlotId) (rev : Bool) (c : Int) (j : Nat) :
    distOf k (c + j * effStep k rev) = distOf k c + dirSign rev * 3 * j := by
  rw [← distOf_add_sigma_mul, effStep, Config.stride]
  congr 1; ring

theorem playAdvance_of_passed {c : Int} (h : passed k rev e (c + effStep k rev) = true) :
    playAdvance k rev e c = startOffset k rev e := if_pos h

theorem playAdvance_of_not_passed {c : Int} (h : ¬ passed k rev e (c + effStep k rev) = true) :
    playAdvance k rev e c = c + effStep k rev := if_neg h

/-- R184: while no advance has passed the boundary, `j` advances are `j` steps. -/
theorem playAdvance_iterate {c : Int} : ∀ {j : Nat},
    (∀ i : Nat, 0 < i → i ≤ j → ¬ passed k rev e (c + i * effStep k rev) = true) →
    (playAdvance k rev e)^[j] c = c + j * effStep k rev
  | 0, _ => by simp
  | j + 1, hin => by
    have hnext : c + j * effStep k rev + effStep k rev = c + (j + 1 : Nat) * effStep k rev := by
      push_cast; ring
    have hinside := hin (j + 1) j.succ_pos le_rfl
    rw [← hnext] at hinside
    rw [Function.iterate_succ_apply', playAdvance_iterate fun i hpos hle => hin i hpos (by omega),
      playAdvance_of_not_passed hinside, hnext]

/-- R184: where the advances 1 to `m - 1` from the start stay inside and advance `m` passes the boundary, the first ones
step record by record and advance `m` is back at the start. -/
theorem playAdvance_loop {m : Nat} (hpos : 0 < m)
    (hin : ∀ i : Nat, 0 < i → i < m → ¬ passed k rev e (startOffset k rev e + i * effStep k rev) = true)
    (hout : passed k rev e (startOffset k rev e + m * effStep k rev) = true) :
    (∀ j : Nat, j < m → distOf k ((playAdvance k rev e)^[j] (startOffset k rev e)) =
      distOf k (startOffset k rev e) + dirSign rev * 3 * j) ∧
    (playAdvance k rev e)^[m] (startOffset k rev e) = startOffset k rev e := by
  have hsteps (j : Nat) (hj : j < m) :
      (playAdvance k rev e)^[j] (startOffset k rev e) = startOffset k rev e + j * effStep k rev :=
    playAdvance_iterate fun i hi hle => hin i hi (by omega)
  refine ⟨fun j hj => by rw [hsteps j hj, distOf_add_mul_effStep], ?_⟩
  obtain ⟨l, rfl⟩ : ∃ l, m = l + 1 := ⟨m - 1, by omega⟩
  rw [Function.iterate_succ_apply', hsteps l l.lt_succ_self]
  refine playAdvance_of_passed ?_
  rw [← hout]
  congr 1
  push_cast; ring

/-- R184: forward, the boundary of `n` records is passed at advance `n` and not before. -/
theorem passed_forward_iff {n : Nat} (he : distOf k e = 3 * (n : Int)) (i : Nat) :
    passed k false e (startOffset k false e + i * effStep k false) = true ↔ n ≤ i := by
  rw [passed_iff, distOf_add_mul_effStep, distOf_startOffset, extent, he]
  simp [dirSign]

/-- R173: reverse playback of `n` records starts at the last one. -/
theorem distOf_startOffset_reverse {n : Nat} (he : distOf k e = 3 * (n : Int)) (hn : 1 ≤ n) :
    distOf k (startOffset k true e) = 3 * ((n : Int) - 1) := by
  rw [distOf_startOffset, extent, he, if_neg (by simp only [Bool.true_eq_false, false_or]; omega)]
  ring

/-- R184, R353: in reverse, the origin is reached at advance `n - 1`, so that it re-seeds. -/
theorem passed_reverse_iff {n : Nat} (he : distOf k e = 3 * (n : Int)) (hn : 1 ≤ n) (i : Nat) :
    passed k true e (startOffset k true e + i * effStep k true) = true ↔ n - 1 ≤ i := by
  rw [passed_iff, distOf_add_mul_effStep, distOf_startOffset_reverse he hn, dirSign, if_pos rfl]
  simp only [Bool.true_eq_false, false_and, false_or, true_and]
  omega

/-- Settles O40: the loop closes at the first advance that passes the boundary. -/
theorem playbackLoopCloses : Obligations.PlaybackLoopCloses := by
  intro k e n he hn _
  obtain ⟨hforward, hforwardEnd⟩ := playAdvance_loop hn
    (fun i _ hi => by rw [passed_forward_iff he]; omega) ((passed_forward_iff he n).2 le_rfl)
  obtain ⟨hreverse, hreverseEnd⟩ := playAdvance_loop (m := max (n - 1) 1) (by omega)
    (fun i _ hi => by rw [passed_reverse_iff he hn]; omega) ((passed_reverse_iff he hn _).2 (le_max_left _ _))
  refine ⟨fun j hj => ?_, hforwardEnd, fun j hj => ?_, hreverseEnd⟩
  · refine (hforward j hj).trans ?_
    simp [distOf_startOffset, dirSign]
  · refine (hreverse j hj).trans ?_
    rw [distOf_startOffset_reverse he hn, dirSign, if_pos rfl]
    ring

end Sys2Proof.Proofs
end

section
/-! PROOFS. The odd record tick (R253, R260): the packed write at the write cursor, the capacity check on the advanced
cursor, and what steps S5 and S6 make of the tick (R255, R256). -/

namespace Sys2Proof.Proofs

open Sys2Proof.Machine

variable {s t : State}

/-! ### The DSP step -/

/-- The registers beside `MIX` that the DSP step reads hold the same (R222, R224, R225). -/
structure SameDspInputs (s t : State) : Prop where
  gest : t.gest = s.gest
  cutLp : t.cutLp = s.cutLp
  fbLp : t.fbLp = s.fbLp
  cutHp : t.cutHp = s.cutHp
  fbHp : t.fbHp = s.fbHp
  bitres : t.bitres = s.bitres
  lpBuf0 : t.lpBuf0 = s.lpBuf0
  lpBuf1 : t.lpBuf1 = s.lpBuf1
  hpBuf0 : t.hpBuf0 = s.hpBuf0
  hpBuf1 : t.hpBuf1 = s.hpBuf1

/-- R250: executing the selected row of step S5 is the DSP step. -/
theorem exec_dspRow (h : t.gest = s.gest) : exec (dspRow s) t = .next (dspStep t) := by
  have hselect : s.gest.getLsbD 7 = gestBypass t.gest := by rw [h, gestBypass]
  rw [dspRow, dspStep, hselect]
  split <;> rfl

/-- R225 to R228: what the DSP step writes depends on its inputs alone. -/
theorem dspStep_congr (h : SameDspInputs s t) (hmix : t.mix = s.mix) :
    (dspStep t).outSample = (dspStep s).outSample ∧ (dspStep t).lpBuf0 = (dspStep s).lpBuf0 ∧
      (dspStep t).lpBuf1 = (dspStep s).lpBuf1 ∧ (dspStep t).hpBuf0 = (dspStep s).hpBuf0 ∧
      (dspStep t).hpBuf1 = (dspStep s).hpBuf1 := by
  have hlow : lowPass t = lowPass s := by
    simp only [lowPass, hmix, h.cutLp, h.fbLp, h.lpBuf0, h.lpBuf1]
  have hhigh : highPass t = highPass s := by
    simp only [highPass, hlow, h.cutHp, h.fbHp, h.hpBuf0, h.hpBuf1]
  simp only [dspStep, h.gest]
  split
  · exact ⟨by simp [hmix], h.lpBuf0, h.lpBuf1, h.hpBuf0, h.hpBuf1⟩
  · simp [filterChain, hlow, hhigh, h.bitres]

/-- R255: a tick whose operation leaves the inputs of the DSP step ends with the output staged for its mix. -/
theorem stagedOutput_finishTick (h : SameDspInputs s t) : StagedOutput s (finishTick t) :=
  ⟨_, exec_dspRow rfl, dspStep_congr { h with } (finishTick_mix t).symm⟩

/-- R255, R256: steps S5 and S6 write `OUT`, the accumulators and `PHASE`. -/
theorem finishTick_eq (s : State) : finishTick s =
    { s with
      outSample := (finishTick s).outSample
      lpBuf0 := (finishTick s).lpBuf0, lpBuf1 := (finishTick s).lpBuf1
      hpBuf0 := (finishTick s).hpBuf0, hpBuf1 := (finishTick s).hpBuf1
      phase := !s.phase } := by
  unfold finishTick dspStep
  split <;> rfl

/-- R252, R266: the signal of a sample fits `MIX`. -/
theorem ofInt_signal_toInt (v : Sample) : (BitVec.ofInt 12 (signal v)).toInt = (v.toNat : Int) - 2048 := by
  have hv := v.isLt
  rw [BitVec.toInt_ofInt, signal, Config.dcOffset]
  exact Int.bmod_eq_of_le (by omega) (by omega)

/-! ### The capacity check -/

theorem checkOverflow_of_full (h : distOf s.slot s.wcur.toInt > 65533) :
    checkOverflow s = { s with mode := .recordDone, tout := .terminated } := if_pos (decide_eq_true h)

theorem checkOverflow_of_room (h : distOf s.slot s.wcur.toInt ≤ 65533) : checkOverflow s = s :=
  if_neg (by simpa [overflow] using h)

/-- R253: from a cursor whose record is in the device, the advance fits its register. -/
theorem toCursor_advance_toInt {k : SlotId} {c : Int} (h : baseInRange (recordBase k c) = true) :
    (toCursor (c + sigma k * Config.stride)).toInt = c + 3 * sigma k := by
  obtain ⟨hlow, hhigh⟩ := (baseInRange_iff _).1 h
  rw [mul_comm, Config.stride]
  rw [recordBase] at hlow hhigh
  rcases sigma_eq k with hk | hk <;> simp only [hk] at hlow hhigh ⊢ <;>
    exact toCursor_toInt (by omega) (by omega)

/-! ### The pair -/

theorem recordPair_completes (h : baseInRange (recordBase s.slot s.wcur.toInt) = true) :
    ∃ t, recordPair s = some t := by
  obtain ⟨u, hwrite⟩ := mappedWrite_completes h s s.rbuf s.inSample
  exact ⟨_, (recordPair_eq_some ..).2 ⟨u, hwrite, rfl⟩⟩

/-- R253, R260: an odd record tick's pair writes one device, `WCUR`, and what the capacity check writes. -/
theorem recordPair_eq (h : recordPair s = some t) :
    t = { s with
      mode := t.mode, tout := t.tout, wcur := t.wcur, storeA := t.storeA, storeB := t.storeB
      trace := s.trace ++ [.storeWrite (chipOf s.slot) (recordBase s.slot s.wcur.toInt).toNat
        (pack s.rbuf s.inSample).y0 (pack s.rbuf s.inSample).y1 (pack s.rbuf s.inSample).y2] } := by
  obtain ⟨u, hwrite, rfl⟩ := (recordPair_eq_some ..).1 h
  obtain ⟨a, b, rfl⟩ : ∃ a b, u = { s with storeA := a, storeB := b, trace := _ } := ⟨_, _, mappedWrite_eq hwrite⟩
  unfold checkOverflow
  split <;> rfl

/-- R260: the devices after the pair are those after its packed write. -/
theorem recordPair_devices (h : recordPair s = some t) :
    ∃ u, mappedWrite s s.slot s.wcur.toInt s.rbuf s.inSample = some u ∧ deviceOf t = deviceOf u := by
  obtain ⟨u, hwrite, rfl⟩ := (recordPair_eq_some ..).1 h
  exact ⟨u, hwrite, deviceOf_congr (by simp) (by simp)⟩

/-- R253, R260: the write cursor after the pair is one record further from the origin. -/
theorem recordPair_wcur (h : recordPair s = some t) : t.wcur.toInt = s.wcur.toInt + 3 * sigma s.slot := by
  obtain ⟨u, hwrite, rfl⟩ := (recordPair_eq_some ..).1 h
  obtain ⟨hbase, rfl⟩ := (mappedWrite_eq_some ..).1 hwrite
  simpa using toCursor_advance_toInt hbase

/-- R182, R260: the pair enters RECORD_DONE where the next record would not fit, and there alone. -/
theorem recordPair_capacity (h : recordPair s = some t) :
    (distOf s.slot t.wcur.toInt > 65533 → t.mode = .recordDone ∧ t.tout = .terminated) ∧
      (distOf s.slot t.wcur.toInt ≤ 65533 → t.mode = s.mode ∧ t.tout = s.tout) := by
  obtain ⟨u, hwrite, rfl⟩ := (recordPair_eq_some ..).1 h
  obtain ⟨-, rfl⟩ := (mappedWrite_eq_some ..).1 hwrite
  rw [checkOverflow_wcur]
  refine ⟨fun hfull => ?_, fun hroom => ?_⟩
  · rw [checkOverflow_of_full (by simpa using hfull)]
    exact ⟨rfl, rfl⟩
  · rw [checkOverflow_of_room (by simpa using hroom)]
    simp

/-! ### The whole tick -/

/-- R252: passing the input writes `TOUT`, `IN`, `MIX` and what crosses the ports. -/
theorem passInput_eq (s : State) : passInput s =
    { s with
      tout := .continued, inSample := s.ain, mix := BitVec.ofInt 12 (signal s.ain)
      trace := s.trace ++ [.dac s.outSample, .adc s.ain] } := by
  rw [← passInput_trace]
  rfl

/-- R260: the fields that an odd record tick writes. -/
theorem finishTick_recordPair_eq (h : recordPair (passInput s) = some t) : finishTick t =
    { s with
      tout := (finishTick t).tout, mode := (finishTick t).mode, inSample := s.ain, mix := (finishTick t).mix
      outSample := (finishTick t).outSample
      lpBuf0 := (finishTick t).lpBuf0, lpBuf1 := (finishTick t).lpBuf1
      hpBuf0 := (finishTick t).hpBuf0, hpBuf1 := (finishTick t).hpBuf1
      wcur := (finishTick t).wcur, storeA := (finishTick t).storeA, storeB := (finishTick t).storeB
      phase := !s.phase
      trace := s.trace ++ [.dac s.outSample, .adc s.ain,
        .storeWrite (chipOf s.slot) (recordBase s.slot s.wcur.toInt).toNat (pack s.rbuf s.ain).y0
          (pack s.rbuf s.ain).y1 (pack s.rbuf s.ain).y2] } := by
  have hwritten := recordPair_eq h
  simp only [passInput_eq s, List.append_assoc, List.cons_append, List.nil_append] at hwritten
  refine (finishTick_eq t).trans ?_
  simp only [finishTick_tout, finishTick_mode, finishTick_mix, finishTick_wcur, finishTick_storeA, finishTick_storeB]
  generalize finishTick t = r
  obtain ⟨mode, tout, wcur, a, b, rfl⟩ : ∃ mode tout wcur a b, t =
      { s with
        mode := mode, tout := tout, wcur := wcur, storeA := a, storeB := b, inSample := s.ain, mix := _
        trace := _ } := ⟨_, _, _, _, _, hwritten⟩
  rfl

/-- R260: an odd record tick leaves the inputs of the DSP step. -/
theorem recordPair_sameDspInputs (h : recordPair (passInput s) = some t) : SameDspInputs s t := by
  rw [recordPair_eq h]
  constructor <;> rfl

/-- Settles O23, from what the packed write, the capacity check and the end of the tick each do. -/
theorem oddRecordTickWritesOneRecord : Obligations.OddRecordTickWritesOneRecord := by
  intro s hmode hphase b hbase
  obtain ⟨u, hpair⟩ := recordPair_completes (s := passInput s) (by simpa using (baseInRange_iff _).2 hbase)
  obtain ⟨v, hwrite, hdevices⟩ := recordPair_devices hpair
  have hbytes : deviceOf (finishTick u) = deviceOf v := (finishTick_devices u).trans hdevices
  obtain ⟨hfull, hroom⟩ := recordPair_capacity hpair
  obtain ⟨hother, hframe, hrecord⟩ := mappedWrite_devices hwrite
  have hmix : u.mix = BitVec.ofInt 12 (signal s.ain) := by
    rw [recordPair_eq hpair]
    exact passInput_mix s
  simp only [passInput_slot, passInput_wcur, passInput_mode, passInput_tout, passInput_devices, hmode]
    at hfull hroom hother hframe hrecord
  refine ⟨finishTick u, congrArg outcomeOf (congrArg (Option.map finishTick) hpair), ?_, ?_, ?_, ?_, ?_, ?_, ?_, ?_,
    stagedOutput_finishTick (recordPair_sameDspInputs hpair)⟩
  · refine (finishTick_recordPair_eq hpair).trans ?_
    rw [hphase]
    rfl
  · rw [finishTick_mix, hmix, ofInt_signal_toInt]
  · simpa using recordPair_wcur hpair
  · simpa using hfull
  · simpa using hroom
  · exact hbytes ▸ hother
  · exact hbytes ▸ hframe
  · exact hbytes ▸ hrecord

end Sys2Proof.Proofs
end

section
/-! PROOFS. The grain window in distances from a slot's origin (R201, R202, R207): the fold of the read position, the
hop of the window start and its re-seed. -/

namespace Sys2Proof.Proofs

open Sys2Proof.Machine

variable {k : SlotId} {rev : Bool} {e g : Int} {size : Nat} {anchor : Option Int}

/-- R22, R171: the distance by the orientation of the slot. -/
theorem distOf_eq_ite (k : SlotId) (c : Int) : distOf k c = if k = .slot0 ∨ k = .slot2 then c else 65535 - c := by
  cases k <;> simp [distOf, sigma, origin]

/-- Settles O39: the fold and the hop each keep a valid window start valid. -/
theorem grainCursorsStayValid : Obligations.GrainCursorsStayValid := fun _ rev _ _ _ he hg ha =>
  ⟨fun n => grainPos_valid he rev n hg, fun size => grainNext_valid he rev size hg ha⟩

/-! ### The read position -/

/-- R201, in distances: the window start moved `n` records in playing order, folded into the extent. -/
theorem distOf_grainPos (k : SlotId) (rev : Bool) (e g : Int) (n : Nat) :
    distOf k (grainPos k rev e g n) = foldIntoExtent (distOf k g + dirSign rev * 3 * n) (extent k e) := by
  rw [grainPos, distOf_add_sigma_mul, distOf_origin, Int.zero_add, Config.stride]

/-- R201: the fold by a positive extent is the remainder, with its quotient. -/
theorem foldIntoExtent_spec {x : Int} (hx : 0 < x) (u : Int) :
    0 ≤ foldIntoExtent u x ∧ foldIntoExtent u x < x ∧ ∃ q : Int, u = q * x + foldIntoExtent u x := by
  rw [foldIntoExtent_of_nonneg hx.le, if_neg hx.ne']
  exact ⟨Int.emod_nonneg _ hx.ne', Int.emod_lt_of_pos _ hx, u / x, (Int.ediv_mul_add_emod u x).symm⟩

/-! ### The next window start -/

/-- The window start moved `GRAIN_SIZE` records in playing order, before the re-seed (R202). -/
def grainHop (k : SlotId) (rev : Bool) (g : Int) (size : Nat) : Int :=
  g + sigma k * dirSign rev * Config.stride * size

theorem distOf_grainHop (k : SlotId) (rev : Bool) (g : Int) (size : Nat) :
    distOf k (grainHop k rev g size) = distOf k g + dirSign rev * 3 * size := by
  rw [← distOf_add_sigma_mul, grainHop, Config.stride]
  congr 1; ring

theorem grainNext_of_passed (h : passed k rev e (grainHop k rev g size) = true) :
    grainNext k rev e g size anchor = anchor.getD (startOffset k rev e) := if_pos h

theorem grainNext_of_not_passed (h : ¬ passed k rev e (grainHop k rev g size) = true) :
    grainNext k rev e g size anchor = grainHop k rev g size := if_neg h

/-- R202, log 9: under freeze the window start is re-seeded at `ANCHOR`. -/
theorem grainNextOf_anchor {s : State}
    (h : passed k s.dir (endOf s k) (grainHop k s.dir s.gaddr.toInt s.grainSize.toNat) = true)
    (hfreeze : s.freezeAct = true) : grainNextOf s k = s.anchor.toInt := by
  rw [grainNextOf, grainNext_of_passed h, if_pos hfreeze, Option.getD_some]

/-- R202: without freeze the window start is re-seeded at the start of the direction. -/
theorem grainNextOf_start {s : State}
    (h : passed k s.dir (endOf s k) (grainHop k s.dir s.gaddr.toInt s.grainSize.toNat) = true)
    (hfreeze : s.freezeAct = false) : grainNextOf s k = startOf s k := by
  rw [grainNextOf, grainNext_of_passed h, if_neg (by simp [hfreeze]), Option.getD_none, startOf]

/-- Settles O60: the statement's distances are those of the mapper, and its `reached` is the comparison of R175. -/
theorem grainWindowFoldsAndHops : Obligations.GrainWindowFoldsAndHops := by
  intro s k dist ext dsign pos hop reached
  have hdist (c : Int) : dist c = distOf k c := (distOf_eq_ite k c).symm
  have hext : ext = extent k (endOf s k) := hdist _
  have hpos : pos = foldIntoExtent (dist s.gaddr.toInt + dsign * 3 * (s.gcnt.toNat : Int)) ext := by
    rw [hext, hdist]
    exact (hdist _).trans (distOf_grainPos ..)
  have hhop : hop = distOf k (grainHop k s.dir s.gaddr.toInt s.grainSize.toNat) := by
    rw [distOf_grainHop, ← hdist]
    rfl
  have hreached : reached ↔
      passed k s.dir (endOf s k) (grainHop k s.dir s.gaddr.toInt s.grainSize.toNat) = true := by
    rw [passed_iff, ← hhop, ← hext]
  simp only [hreached, hpos, hdist]
  refine ⟨fun hempty => ?_, fun hrecorded => foldIntoExtent_spec hrecorded _, fun hin => ?_, fun ⟨hout, hfreeze⟩ => ?_,
    fun ⟨hout, hfreeze, hstart⟩ => ?_, fun ⟨hout, hfreeze, hrev, hne⟩ => ?_⟩
  · rw [foldIntoExtent, if_pos hempty]
  · rw [grainNextOf, grainNext_of_not_passed hin, ← hhop]
  · exact grainNextOf_anchor hout hfreeze
  · rw [grainNextOf_start hout hfreeze, startOf, distOf_startOffset, ← hext, if_pos hstart]
  · rw [grainNextOf_start hout hfreeze, startOf, distOf_startOffset, ← hext, if_neg (by simp [hrev, hne])]

end Sys2Proof.Proofs
end

section
/-! PROOFS. The grain step (R203): the record it reads, and what it does to the window. -/

namespace Sys2Proof.Proofs

open Sys2Proof.Machine

variable {s t : State} {k : SlotId}

/-! ### What crosses the storage port -/

/-- The event of a packed read at a cursor (R72, R180). -/
def packedRead (s : State) (k : SlotId) (c : Int) : PortEvent :=
  let b := (recordBase k c).toNat
  let p := recordAt (deviceOf s (chipOf k)) b
  .storeRead (chipOf k) b p.y0 p.y1 p.y2

/-- R180: a mapped read writes the trace alone, by its packed read. -/
theorem mappedRead_state {c : Int} {r : (Sample × Sample) × State} (h : mappedRead s k c = some r) :
    r.2 = logEvent s (packedRead s k c) := by
  obtain ⟨-, -, hlog⟩ := (mappedRead_eq_some ..).1 h
  exact hlog

/-- R72: the event is a function of what the devices hold. -/
theorem packedRead_congr (h : deviceOf t = deviceOf s) : packedRead t = packedRead s := by
  funext k c
  rw [packedRead, packedRead, h]

/-! ### The grain step -/

theorem grainStep_completes (h : baseInRange (recordBase k (grainPosOf s k)) = true) : ∃ t, grainStep s k = some t :=
  ⟨_, (grainStep_eq_some ..).2 ⟨(_, _), (mappedRead_eq_some ..).2 ⟨h, rfl, rfl⟩, rfl⟩⟩

theorem exec_grStep (h : grainStep s k = some t) : exec (.grStep k) s = .next t := congrArg outcomeOf h

/-- R203: counting writes the window registers alone. -/
theorem countGrain_eq (s : State) (k : SlotId) :
    countGrain s k = { s with gcnt := (countGrain s k).gcnt, gaddr := (countGrain s k).gaddr } := by
  simp only [countGrain]
  split <;> rfl

/-- R203: a grain step writes the pair, `MIX`, `TOUT`, the window registers and the read that crosses the port. -/
theorem grainStep_eq (h : grainStep s k = some t) :
    t = { s with
      tout := .substituted, d0 := t.d0, d1 := t.d1, mix := t.mix, gcnt := t.gcnt, gaddr := t.gaddr
      trace := s.trace ++ [packedRead s k (grainPosOf s k)] } := by
  obtain ⟨⟨pair, u⟩, hread, rfl⟩ := (grainStep_eq_some ..).1 h
  obtain rfl : u = _ := mappedRead_state hread
  rw [countGrain_eq]
  rfl

/-- R178, R203: the pair a grain step leaves is the record at the grain position. -/
theorem grainStep_pair (h : grainStep s k = some t) :
    t.d0 = (unpack (recordAt (deviceOf s (chipOf k)) (recordBase k (grainPosOf s k)).toNat)).1 ∧
      t.d1 = (unpack (recordAt (deviceOf s (chipOf k)) (recordBase k (grainPosOf s k)).toNat)).2 := by
  obtain ⟨⟨pair, u⟩, hread, rfl⟩ := (grainStep_eq_some ..).1 h
  obtain ⟨-, rfl, -⟩ := (mappedRead_eq_some ..).1 hread
  simp

/-- R203: the mix of a grain step is its first sample, re-centred. -/
theorem grainStep_mix (h : grainStep s k = some t) : t.mix.toInt = (t.d0.toNat : Int) - 2048 := by
  obtain ⟨r, -, rfl⟩ := (grainStep_eq_some ..).1 h
  simpa using ofInt_signal_toInt r.1.1

/-- R203: a grain step closes the window at a count of at least `SPG`, and counts below it. -/
theorem grainStep_window (h : grainStep s k = some t) :
    (s.spg ≤ s.gcnt + 1#24 → t.gcnt = 0#24 ∧ t.gaddr = toCursor (grainNextOf s k)) ∧
      (¬s.spg ≤ s.gcnt + 1#24 → t.gcnt = s.gcnt + 1#24 ∧ t.gaddr = s.gaddr) := by
  obtain ⟨⟨pair, u⟩, hread, rfl⟩ := (grainStep_eq_some ..).1 h
  obtain rfl : u = _ := mappedRead_state hread
  rcases countGrain_cases { logEvent s _ with d0 := _, d1 := _, mix := _ } k with
    ⟨hfull, hgcnt, hgaddr⟩ | ⟨hopen, hgcnt, hgaddr⟩
  · exact ⟨fun _ => ⟨hgcnt, hgaddr⟩, fun hno => absurd hfull hno⟩
  · exact ⟨fun hyes => absurd hyes hopen, fun _ => ⟨hgcnt, hgaddr⟩⟩

/-- Settles O28, from what a grain step writes, reads and counts. -/
theorem grainStepReadsAndCounts : Obligations.GrainStepReadsAndCounts := by
  intro s k g q hbase
  obtain ⟨t, hstep⟩ := grainStep_completes ((baseInRange_iff _).2 hbase)
  obtain ⟨hfirst, hsecond⟩ := grainStep_pair hstep
  obtain ⟨hd0, hd1⟩ := unpack_toNat q
  obtain ⟨hfull, hopen⟩ := grainStep_window hstep
  exact ⟨t, exec_grStep hstep, grainStep_eq hstep, hfirst ▸ hd0, hsecond ▸ hd1, grainStep_mix hstep, hfull, hopen⟩

end Sys2Proof.Proofs
end

section
/-! PROOFS. The substituted playback tick (R264, R265): a grain step from the state that the normal read leaves. -/

namespace Sys2Proof.Proofs

open Sys2Proof.Machine

variable {s t : State}

/-- R254: the normal read writes the pair, `IN` and what crosses the ports. -/
theorem readAndSample_eq (h : readAndSample s = some t) :
    t = { s with
      d0 := t.d0, d1 := t.d1, inSample := s.ain
      trace := s.trace ++ [packedRead s s.slot s.pcur.toInt, .adc s.ain] } := by
  obtain ⟨⟨pair, u⟩, hread, rfl⟩ := (readAndSample_eq_some ..).1 h
  obtain rfl : u = _ := mappedRead_state hread
  simp [sampleInput, logEvent]

/-- The state that steps S1 and S2 and the normal read of a substituted tick leave (R264), but for the pair, which the
grain step replaces. -/
def afterNormalRead (s : State) (d0 d1 : Sample) : State :=
  { s with
    tout := .continued, d0 := d0, d1 := d1, inSample := s.ain
    trace := s.trace ++ [.dac s.outSample, packedRead s s.slot s.pcur.toInt, .adc s.ain] }

theorem afterNormalRead_devices (s : State) (d0 d1 : Sample) : deviceOf (afterNormalRead s d0 d1) = deviceOf s :=
  deviceOf_congr rfl rfl

/-- R264: a substituted tick is a grain step after the normal read. -/
theorem playSubstituted_grainStep (h : playSubstituted s = some t) :
    ∃ d0 d1, grainStep (afterNormalRead s d0 d1) s.slot = some t := by
  obtain ⟨u, hread, hgrain⟩ := (playSubstituted_eq_some ..).1 h
  have hstate := readAndSample_eq hread
  have hslot : u.slot = s.slot := (readAndSample_grainPosOf hread).1
  refine ⟨u.d0, u.d1, ?_⟩
  rw [← hslot, ← hgrain]
  congr 1
  rw [hstate, packedRead_congr (emitOutput_beginTick_devices s)]
  simp [afterNormalRead]

/-- R264: the fields that steps S1 to S4 of a substituted tick write. -/
theorem playSubstituted_eq (h : playSubstituted s = some t) :
    t = { s with
      tout := .substituted, d0 := t.d0, d1 := t.d1, inSample := s.ain, mix := t.mix, gcnt := t.gcnt, gaddr := t.gaddr
      trace := s.trace ++ [.dac s.outSample, packedRead s s.slot s.pcur.toInt, .adc s.ain,
        packedRead s s.slot (grainPosOf s s.slot)] } := by
  obtain ⟨d0, d1, hgrain⟩ := playSubstituted_grainStep h
  have hwritten := grainStep_eq hgrain
  have htrace (e : PortEvent) : (afterNormalRead s d0 d1).trace ++ [e] =
      s.trace ++ [.dac s.outSample, packedRead s s.slot s.pcur.toInt, .adc s.ain, e] := by simp [afterNormalRead]
  rw [packedRead_congr (afterNormalRead_devices s d0 d1), htrace] at hwritten
  exact hwritten

theorem playSubstituted_defined (hplay : baseInRange (recordBase s.slot s.pcur.toInt) = true)
    (hgrain : baseInRange (recordBase s.slot (grainPosOf s s.slot)) = true) : ∃ t, playSubstituted s = some t := by
  rw [← Option.ne_none_iff_exists', ne_eq, playSubstituted_eq_none_iff]
  simp [hplay, hgrain]

/-- R255, R256, R264: the fields that a substituted tick writes. -/
theorem finishTick_playSubstituted_eq (h : playSubstituted s = some t) : finishTick t =
    { s with
      tout := .substituted, d0 := (finishTick t).d0, d1 := (finishTick t).d1, inSample := s.ain
      mix := (finishTick t).mix, gcnt := (finishTick t).gcnt, gaddr := (finishTick t).gaddr
      outSample := (finishTick t).outSample
      lpBuf0 := (finishTick t).lpBuf0, lpBuf1 := (finishTick t).lpBuf1
      hpBuf0 := (finishTick t).hpBuf0, hpBuf1 := (finishTick t).hpBuf1
      phase := !s.phase
      trace := s.trace ++ [.dac s.outSample, packedRead s s.slot s.pcur.toInt, .adc s.ain,
        packedRead s s.slot (grainPosOf s s.slot)] } := by
  refine (finishTick_eq t).trans ?_
  simp only [finishTick_d0, finishTick_d1, finishTick_mix, finishTick_gcnt, finishTick_gaddr]
  generalize finishTick t = r
  obtain ⟨d0, d1, mix, gcnt, gaddr, rfl⟩ : ∃ d0 d1 mix gcnt gaddr, t =
      { s with
        tout := .substituted, d0 := d0, d1 := d1, inSample := s.ain, mix := mix, gcnt := gcnt, gaddr := gaddr
        trace := _ } := ⟨_, _, _, _, _, playSubstituted_eq h⟩
  rfl

/-- Settles O27: `AT.PLAY.G` and `AT.PLAY.F` are one operation, the grain step after the normal read, and the end of the
tick writes none of what the grain step wrote. -/
theorem substitutedTickPlaysTheGrain : Obligations.SubstitutedTickPlaysTheGrain := by
  intro s i hi hphase b g p q ⟨hb0, hb1, hg0, hg1⟩
  obtain ⟨u, hplay⟩ := playSubstituted_defined ((baseInRange_iff _).2 ⟨hb0, hb1⟩) ((baseInRange_iff _).2 ⟨hg0, hg1⟩)
  have hexec : exec i s = .next (finishTick u) := by
    have hrow : exec i s = outcomeOf ((playSubstituted s).map finishTick) := by rcases hi with rfl | rfl <;> rfl
    rw [hrow, hplay, Option.map_some, outcomeOf_some]
  have hinputs : SameDspInputs s u := by
    rw [playSubstituted_eq hplay]
    constructor <;> rfl
  obtain ⟨d0, d1, hgrain⟩ := playSubstituted_grainStep hplay
  obtain ⟨hfirst, hsecond⟩ := grainStep_pair hgrain
  rw [afterNormalRead_devices] at hfirst hsecond
  obtain ⟨hd0, hd1⟩ := unpack_toNat q
  obtain ⟨hfull, hopen⟩ := grainStep_window hgrain
  refine ⟨finishTick u, hexec, ?_, ?_, ?_, ?_, ?_, ?_, stagedOutput_finishTick hinputs⟩
  · refine (finishTick_playSubstituted_eq hplay).trans ?_
    rw [hphase]
    rfl
  · rw [finishTick_d0, hfirst]; exact hd0
  · rw [finishTick_d1, hsecond]; exact hd1
  · rw [finishTick_mix, finishTick_d0]; exact grainStep_mix hgrain
  · rw [finishTick_gcnt, finishTick_gaddr]; exact hfull
  · rw [finishTick_gcnt, finishTick_gaddr]; exact hopen

end Sys2Proof.Proofs
end

section
/-! PROOFS. One full window of grain steps (R202, R203, R206): the steps before the last count, and the last one moves
the window start. -/

namespace Sys2Proof.Proofs

open Sys2Proof.Machine

variable {s t : State} {k : SlotId}

theorem repeatExec_succ {i : Instr} (h : exec i s = .next t) (n : Nat) : repeatExec i (n + 1) s = repeatExec i n t := by
  simp only [repeatExec, h]

/-- R183: a valid read cursor fits its register. -/
theorem toCursor_toInt_of_validReadCursor {e c : Int} (he : ValidEnd k e) (hc : ValidReadCursor k e c) :
    (toCursor c).toInt = c := by
  have htop : extent k e ≤ 65535 := he.2.1
  obtain ⟨hnonneg, hbelow, -⟩ := hc
  exact toCursor_toInt_of_dist (k := k) hnonneg (by omega)

/-- R203: a grain step leaves the slot, the window length and the playback cursor. -/
theorem grainStep_frame (h : grainStep s k = some t) : t.slot = s.slot ∧ t.spg = s.spg ∧ t.pcur = s.pcur := by
  rw [grainStep_eq h]
  exact ⟨rfl, rfl, rfl⟩

/-- R202: of what the next window start depends on, a grain step writes `GADDR` alone. -/
theorem grainStep_grainNextOf (h : grainStep s k = some t) (hgaddr : t.gaddr = s.gaddr) :
    grainNextOf t = grainNextOf s := by
  rw [grainStep_eq h, hgaddr]
  rfl

/-- R203: what is left of a window, `n + 1` grain steps, completes and ends with the window start moved once. -/
theorem repeatExec_grStep_window {n : Nat} : ∀ {s : State}, Invariants s → s.mode = .playback →
    s.gcnt.toNat + (n + 1) = s.spg.toNat →
    ∃ t, repeatExec (.grStep s.slot) (n + 1) s = .next t ∧ t.gcnt = 0#24 ∧
      t.gaddr = toCursor (grainNextOf s s.slot) ∧ t.pcur = s.pcur := by
  induction n with
  | zero =>
    intro s h hmode hlast
    obtain ⟨t, hstep⟩ := grainStep_completes (grainBase_inRange h hmode)
    obtain ⟨-, -, hpcur⟩ := grainStep_frame hstep
    obtain ⟨hgcnt, hgaddr⟩ := (grainStep_window hstep).1 (by bv_omega)
    exact ⟨t, repeatExec_succ (exec_grStep hstep) 0, hgcnt, hgaddr, hpcur⟩
  | succ n ih =>
    intro s h hmode hleft
    obtain ⟨t, hstep⟩ := grainStep_completes (grainBase_inRange h hmode)
    obtain ⟨hslot, hspg, hpcur⟩ := grainStep_frame hstep
    obtain ⟨hgcnt, hgaddr⟩ := (grainStep_window hstep).2 (by bv_omega)
    obtain ⟨u, hrun, hclosed, hmoved, hkept⟩ :=
      ih (grainStep_keeps h hstep) ((grainStep_mode hstep).trans hmode) (by rw [hspg, hgcnt]; bv_omega)
    rw [hslot, grainStep_grainNextOf hstep hgaddr] at hmoved
    rw [hslot] at hrun
    exact ⟨u, (repeatExec_succ (exec_grStep hstep) _).trans hrun, hclosed, hmoved, hkept.trans hpcur⟩

/-- R202, R206: forward and short of the boundary, the next window start is `GRAIN_SIZE` records further. -/
theorem distOf_grainNextOf_forward (hdir : s.dir = false)
    (hshort : distOf k s.gaddr.toInt + 3 * (s.grainSize.toNat : Int) < extent k (endOf s k)) :
    distOf k (grainNextOf s k) = distOf k s.gaddr.toInt + 3 * (s.grainSize.toNat : Int) := by
  have hhop : distOf k (grainHop k s.dir s.gaddr.toInt s.grainSize.toNat) =
      distOf k s.gaddr.toInt + 3 * (s.grainSize.toNat : Int) := by
    simp [distOf_grainHop, hdir, dirSign]
  have hin : ¬ passed k s.dir (endOf s k) (grainHop k s.dir s.gaddr.toInt s.grainSize.toNat) = true := by
    rw [passed_iff, hhop, hdir]
    simpa using hshort
  rw [grainNextOf, grainNext_of_not_passed hin, hhop]

/-- Settles O58: from `GCNT` 0 the window has `SPG` steps left, and the start it moves to fits its register. -/
theorem oneGrainWindowMovesTheStartOnce : Obligations.OneGrainWindowMovesTheStartOnce := by
  intro s h hmode hgcnt
  have hpositive := h.spgPositive
  obtain ⟨n, hn⟩ : ∃ n, s.spg.toNat = n + 1 := ⟨s.spg.toNat - 1, by omega⟩
  obtain ⟨t, hrun, hclosed, hmoved, hpcur⟩ := repeatExec_grStep_window h hmode (n := n) (by simp [hgcnt, hn])
  have hgaddr : t.gaddr.toInt = grainNextOf s s.slot := by
    rw [hmoved, toCursor_toInt_of_validReadCursor (h.endsValid _) (grainNextOf_valid h hmode)]
  exact ⟨t, hn ▸ hrun, hclosed, hgaddr, hpcur, fun hdir hshort => hgaddr ▸ distOf_grainNextOf_forward hdir hshort⟩

end Sys2Proof.Proofs
end

section
/-! PROOFS. The filter and quantizer (R221 to R229): a stage's accumulators fit their registers, the mask of `r` bits by
its single bits, and the output as the top `BITRES` bits of the re-centred value. -/

namespace Sys2Proof.Proofs

open Sys2Proof.Machine

/-! ### The accumulators -/

/-- R9: what `wrap24` gives is a signed 24-bit value, so an accumulator holds it exactly. -/
theorem ofInt_wrap24_toInt (x : Int) : (BitVec.ofInt 24 (wrap24 x)).toInt = wrap24 x := by
  rw [BitVec.toInt_ofInt, wrap24_eq]
  exact Int.bmod_eq_of_le (by omega) (by omega)

/-- R221, R222: the registers hold the low-pass stage's accumulators. -/
theorem filterChain_lowPass_toInt (s : State) :
    (filterChain s).lpBuf0.toInt = (lowPass s).buf0 ∧ (filterChain s).lpBuf1.toInt = (lowPass s).buf1 :=
  ⟨ofInt_wrap24_toInt _, ofInt_wrap24_toInt _⟩

/-- R221, R222: the registers hold the high-pass stage's accumulators. -/
theorem filterChain_highPass_toInt (s : State) :
    (filterChain s).hpBuf0.toInt = (highPass s).buf0 ∧ (filterChain s).hpBuf1.toInt = (highPass s).buf1 :=
  ⟨ofInt_wrap24_toInt _, ofInt_wrap24_toInt _⟩

/-! ### The bit mask -/

/-- R224: the mask keeps the bits of a sample from `12 - r` up. -/
theorem bitMask_getLsbD (r i : Nat) : (bitMask r).getLsbD i = decide (12 - r ≤ i ∧ i < 12) := by
  have hones : 0xFFF#12 = BitVec.allOnes 12 := rfl
  rw [bitMask, Config.resMax, hones, BitVec.getLsbD_shiftLeft, BitVec.getLsbD_allOnes, Bool.eq_iff_iff]
  simp only [Bool.and_eq_true, Bool.not_eq_true', decide_eq_true_eq, decide_eq_false_iff_not]
  omega

/-- R224: the one-bits of the mask, as a number. -/
theorem bitMask_toNat {r : Nat} (hr : 1 ≤ r) : (bitMask r).toNat = 4096 - 2 ^ (12 - r) := by
  have hpos : 1 ≤ 2 ^ (12 - r) := Nat.one_le_two_pow
  have hle : 2 ^ (12 - r) ≤ 2 ^ 11 := Nat.pow_le_pow_right (by decide) (by omega)
  rw [bitMask, Config.resMax, BitVec.toNat_shiftLeft, Nat.shiftLeft_eq]
  simp only [BitVec.toNat_ofNat]
  omega

/-- R224: masking clears the low-order bits by shifting them out. -/
theorem and_bitMask_eq (v : Sample) (r : Nat) : v &&& bitMask r = v >>> (12 - r) <<< (12 - r) := by
  refine BitVec.eq_of_getLsbD_eq fun i hi => ?_
  rw [BitVec.getLsbD_and, bitMask_getLsbD, BitVec.getLsbD_shiftLeft, BitVec.getLsbD_ushiftRight]
  rcases lt_or_ge i (12 - r) with hlow | hkept
  · simp [hlow, hlow.not_ge]
  · simp [hi, hkept, hkept.not_gt, Nat.add_sub_of_le hkept]

/-- R224: masking rounds down to a multiple of `2 ^ (12 - r)`. -/
theorem and_bitMask_toNat (v : Sample) (r : Nat) :
    (v &&& bitMask r).toNat = v.toNat / 2 ^ (12 - r) * 2 ^ (12 - r) := by
  have hfits : v.toNat / 2 ^ (12 - r) * 2 ^ (12 - r) < 2 ^ 12 := (Nat.div_mul_le_self _ _).trans_lt v.isLt
  rw [and_bitMask_eq, BitVec.toNat_shiftLeft, BitVec.toNat_ushiftRight, Nat.shiftLeft_eq, Nat.shiftRight_eq_div_pow,
    Nat.mod_eq_of_lt hfits]

/-- R229: the mask of `r` bits is contained in that of one bit more. -/
theorem bitMask_and_succ (r : Nat) : bitMask r &&& bitMask (r + 1) = bitMask r := by
  refine BitVec.eq_of_getLsbD_eq fun i _ => ?_
  rw [BitVec.getLsbD_and, bitMask_getLsbD, bitMask_getLsbD, ← Bool.decide_and, decide_eq_decide]
  omega

/-- R224: of the twelve bits, `r` are from `12 - r` up. -/
theorem bitMask_oneBits {r : Nat} (hr : r ≤ 12) :
    ((List.range 12).filter fun i => (bitMask r).getLsbD i).length = r := by
  simp only [bitMask_getLsbD]
  interval_cases r <;> rfl

/-- Settles O32, from the single bits of the mask. -/
theorem maskPreservesTheTopBits : Obligations.MaskPreservesTheTopBits :=
  fun r hmin hmax => ⟨bitMask_toNat hmin, bitMask_oneBits hmax, fun _ => bitMask_and_succ r⟩

/-! ### The output -/

/-- R9: the clamp as the nearer bound. -/
theorem clamp12_eq_max_min (x : Int) : clamp12 x = max (-2048) (min 2047 x) := by
  rcases lt_or_ge x (-2048) with hlow | hmin
  · rw [clamp12_of_lt hlow]
    omega
  rcases lt_or_ge 2047 x with hhigh | hmax
  · rw [clamp12_of_gt hhigh]
    omega
  · rw [clamp12_of_mem hmin hmax]
    omega

/-- R223: re-centring a signed 12-bit signal gives an unsigned sample exactly. -/
theorem ofInt_recentred_toNat {x : Int} (hmin : -2048 ≤ x) (hmax : x ≤ 2047) :
    (BitVec.ofInt 12 (x + 2048)).toNat = (x + 2048).toNat := by
  rw [BitVec.toNat_ofInt, Int.emod_eq_of_lt (by omega) (by omega)]

/-- R223, R224: the quantizer's output, in the top `r` bits. -/
theorem quantize_toNat (y : Int) (r : Nat) :
    (quantize y r).toNat = (max (-2048) (min 2047 y) + 2048).toNat / 2 ^ (12 - r) * 2 ^ (12 - r) := by
  rw [quantize, and_bitMask_toNat, Config.dcOffset, clamp12_eq_max_min]
  exact congrArg (· / _ * _) (ofInt_recentred_toNat (by omega) (by omega))

/-- Settles O31: the mix is a signed 12-bit signal. -/
theorem filterBypassOnlyRecentres : Obligations.FilterBypassOnlyRecentres := by
  intro s
  have hmin := BitVec.le_toInt s.mix
  have hmax := BitVec.toInt_lt (x := s.mix)
  refine ⟨filterBypass s, rfl, rfl, ?_⟩
  calc ((filterBypass s).outSample.toNat : Int)
      = ((s.mix.toInt + 2048).toNat : Int) := congrArg _ (ofInt_recentred_toNat (by omega) (by omega))
    _ = s.mix.toInt + 2048 := Int.toNat_of_nonneg (by omega)

/-- Settles O30: the equations of a stage are those of `svf`, over the accumulators that its registers hold. -/
theorem filterChainFollowsTheStageEquations : Obligations.FilterChainFollowsTheStageEquations := by
  intro s
  obtain ⟨hlp0, hlp1⟩ := filterChain_lowPass_toInt s
  obtain ⟨hhp0, hhp1⟩ := filterChain_highPass_toInt s
  refine ⟨filterChain s, rfl, rfl, ?_⟩
  simp only [hlp0, hlp1, hhp0, hhp1]
  exact ⟨rfl, rfl, rfl, rfl, fun _ => quantize_toNat _ _⟩

end Sys2Proof.Proofs
end

section
/-! PROOFS. What every audio tick leaves and toggles (R256, R315): whichever row runs, the data movement of S1 to S4
keeps `PHASE`, the ADC level and the control bits, and the end of the tick toggles `PHASE` alone of these. -/

namespace Sys2Proof.Proofs

open Sys2Proof.Machine

variable {s t : State}

/-- `PHASE`, the ADC level and the control bits of R37 hold the same. -/
structure SameTickControl (s t : State) : Prop where
  phase : t.phase = s.phase
  ain : t.ain = s.ain
  tickEn : t.tickEn = s.tickEn
  tickPend : t.tickPend = s.tickPend
  ovr : t.ovr = s.ovr

theorem SameTickControl.trans {u : State} (hst : SameTickControl s t) (htu : SameTickControl t u) :
    SameTickControl s u :=
  ⟨htu.phase.trans hst.phase, htu.ain.trans hst.ain, htu.tickEn.trans hst.tickEn, htu.tickPend.trans hst.tickPend,
    htu.ovr.trans hst.ovr⟩

/-! ### Steps S1 to S4 -/

theorem passInput_sameTickControl (s : State) : SameTickControl s (passInput s) := by
  constructor <;> simp

theorem emitOutput_beginTick_sameTickControl (s : State) : SameTickControl s (emitOutput (beginTick s)) := by
  constructor <;> simp

theorem mixStored_sameTickControl (d : Sample) (s : State) : SameTickControl s (mixStored d s) := by
  constructor <;> simp

theorem sampleInput_sameTickControl (s : State) : SameTickControl s (sampleInput s) := by
  constructor <;> simp

theorem advancePlay_sameTickControl (s : State) : SameTickControl s (advancePlay s) := by
  constructor <;> simp

theorem recordPair_sameTickControl (h : recordPair s = some t) : SameTickControl s t := by
  rw [recordPair_eq h]
  exact ⟨rfl, rfl, rfl, rfl, rfl⟩

theorem readAndSample_sameTickControl (h : readAndSample s = some t) : SameTickControl s t := by
  rw [readAndSample_eq h]
  exact ⟨rfl, rfl, rfl, rfl, rfl⟩

theorem playSubstituted_sameTickControl (h : playSubstituted s = some t) : SameTickControl s t := by
  rw [playSubstituted_eq h]
  exact ⟨rfl, rfl, rfl, rfl, rfl⟩

/-! ### The whole tick -/

/-- R255, R256: an operation that is not refused gives a state, finished by steps S5 and S6. -/
theorem finishTick_of_outcomeOf_map {o : Option State} (h : outcomeOf (o.map finishTick) = .next t) :
    ∃ u, o = some u ∧ t = finishTick u := by
  obtain ⟨u, hu, rfl⟩ := Option.map_eq_some_iff.1 ((outcomeOf_eq_next _ _).1 h)
  exact ⟨u, hu, rfl⟩

/-- R250, R256: every row of the audio tick ends with steps S5 and S6, after a data movement that leaves `PHASE` and the
control bits. -/
theorem runTickOp_ends {op : TickOp} (h : runTickOp op s = .next t) :
    ∃ u, SameTickControl s u ∧ t = finishTick u := by
  have hemit := emitOutput_beginTick_sameTickControl s
  have hpass := passInput_sameTickControl s
  cases op with
  | off | pass => cases h; exact ⟨_, hpass, rfl⟩
  | recEven =>
    cases h
    refine ⟨_, ?_, rfl⟩
    exact { hpass with }
  | recOdd =>
    obtain ⟨u, hpair, rfl⟩ := finishTick_of_outcomeOf_map h
    exact ⟨u, hpass.trans (recordPair_sameTickControl hpair), rfl⟩
  | done => cases h; exact ⟨beginTick s, ⟨rfl, rfl, rfl, rfl, rfl⟩, rfl⟩
  | playEven =>
    obtain ⟨v, hread, rfl⟩ := Option.map_eq_some_iff.1 ((outcomeOf_eq_next _ _).1 h)
    have hplayed := (mixStored_sameTickControl v.d0 v).trans (advancePlay_sameTickControl _)
    exact ⟨_, (hemit.trans (readAndSample_sameTickControl hread)).trans hplayed, rfl⟩
  | playOdd =>
    cases h
    exact ⟨_, (hemit.trans (sampleInput_sameTickControl _)).trans (mixStored_sameTickControl _ _), rfl⟩
  | playGrain | playFreeze =>
    obtain ⟨u, hgrain, rfl⟩ := finishTick_of_outcomeOf_map h
    exact ⟨u, playSubstituted_sameTickControl hgrain, rfl⟩

/-- R256: over the whole tick the toggle of step S6 is all that happens to `PHASE` and the control bits. -/
theorem runTickOp_control {op : TickOp} (h : runTickOp op s = .next t) : SameTickControl (endTick s) t := by
  obtain ⟨u, hsame, rfl⟩ := runTickOp_ends h
  exact
    { phase := by rw [finishTick_phase, hsame.phase, endTick_phase]
      ain := by rw [finishTick_ain, hsame.ain, endTick_ain]
      tickEn := by rw [finishTick_tickEn, hsame.tickEn, endTick_tickEn]
      tickPend := by rw [finishTick_tickPend, hsame.tickPend, endTick_tickPend]
      ovr := by rw [finishTick_ovr, hsame.ovr, endTick_ovr] }

/-- Settles O20: step S6 is the only one of an audio tick, and none of a control tick, that writes `PHASE`. -/
theorem everyAudioTickTogglesPhase : Obligations.EveryAudioTickTogglesPhase := by
  refine ⟨fun s t op h => (runTickOp_control ((runTickOp_eq_exec op s).trans h)).phase, fun s t h => ?_⟩
  cases h
  exact controlTick_phase s

/-- Settles O19: the invariants make the tick complete, and every tick leaves the control bits; the invariant of R313 is
that no event is held while ticks are enabled. -/
theorem acceptedTimerEventCompletes : Obligations.AcceptedTimerEventCompletes := by
  intro s a hinv hen
  have haccepted : exec (.atick a) s = audioTick { s with ain := a } := if_pos hen
  obtain ⟨t, htick⟩ := audioTick_completes (s := { s with ain := a }) { hinv with }
  have hcontrol := runTickOp_control htick
  exact ⟨t, haccepted.trans htick, hcontrol.phase, hcontrol.ain, hcontrol.tickEn.trans hen,
    hcontrol.tickPend.trans (hinv.pendingOnlyDisabled hen), hcontrol.ovr⟩

end Sys2Proof.Proofs
end

section
/-! PROOFS. The rows of the audio tick that write no storage and substitute no grain (R257 to R259, R261 to R263): the
state each leaves to steps S5 and S6, and the mix of R266. -/

namespace Sys2Proof.Proofs

open Sys2Proof.Machine

variable {s t : State}

/-! ### The mix of a stored sample -/

/-- R9, R266: a clamped mix fits `MIX`. -/
theorem ofInt_clamp12_toInt (x : Int) : (BitVec.ofInt 12 (clamp12 x)).toInt = max (-2048) (min 2047 x) := by
  rw [clamp12_eq_max_min, BitVec.toInt_ofInt]
  exact Int.bmod_eq_of_le (by omega) (by omega)

/-! ### The rows without a storage access -/

/-- The state that steps S1 to S4 leave where the output is emitted and the input sampled, and no storage is accessed:
`IN` is the ADC level, and the row chooses `MIX` and `RBUF` (R258, R259, R263). -/
def inputTaken (s : State) (mix : Mix) (rbuf : Sample) : State :=
  { s with
    tout := .continued, inSample := s.ain, mix := mix, rbuf := rbuf
    trace := s.trace ++ [.dac s.outSample, .adc s.ain] }

/-- R258: the state of the passthrough rows. -/
theorem passInput_eq_inputTaken (s : State) :
    passInput s = inputTaken s (BitVec.ofInt 12 (signal s.ain)) s.rbuf := passInput_eq s

/-- R259: the state of the even record row. -/
theorem bufferInput_eq_inputTaken (s : State) : { passInput s with rbuf := (passInput s).inSample } =
    inputTaken s (BitVec.ofInt 12 (signal s.ain)) s.ain := by
  rw [passInput_eq_inputTaken]
  rfl

/-- R263: the state of the odd playback row. -/
theorem mixStored_sampled_eq_inputTaken (d : Sample) (s : State) :
    mixStored d (sampleInput (emitOutput (beginTick s))) =
      inputTaken s (BitVec.ofInt 12 (clamp12 (signal d + signal s.ain))) s.rbuf := by
  have htrace : (sampleInput (emitOutput (beginTick s))).trace = s.trace ++ [.dac s.outSample, .adc s.ain] := by simp
  rw [inputTaken, ← htrace]
  rfl

theorem inputTaken_sameDspInputs (s : State) (mix : Mix) (rbuf : Sample) :
    SameDspInputs s (inputTaken s mix rbuf) := by
  constructor <;> rfl

/-- R255, R256: the fields that such a row writes. -/
theorem finishTick_inputTaken_eq (s : State) (mix : Mix) (rbuf : Sample) : finishTick (inputTaken s mix rbuf) =
    { s with
      tout := .continued, inSample := s.ain, mix := (finishTick (inputTaken s mix rbuf)).mix, rbuf := rbuf
      outSample := (finishTick (inputTaken s mix rbuf)).outSample
      lpBuf0 := (finishTick (inputTaken s mix rbuf)).lpBuf0, lpBuf1 := (finishTick (inputTaken s mix rbuf)).lpBuf1
      hpBuf0 := (finishTick (inputTaken s mix rbuf)).hpBuf0, hpBuf1 := (finishTick (inputTaken s mix rbuf)).hpBuf1
      phase := !s.phase, trace := s.trace ++ [.dac s.outSample, .adc s.ain] } := by
  rw [finishTick_mix]
  exact finishTick_eq _

/-- Settles O21: both rows pass the input. -/
theorem passthroughTickMovesInputToMix : Obligations.PassthroughTickMovesInputToMix := by
  intro s i hi
  have hexec : exec i s = .next (finishTick (inputTaken s (BitVec.ofInt 12 (signal s.ain)) s.rbuf)) := by
    rw [← passInput_eq_inputTaken]
    rcases hi with rfl | rfl <;> rfl
  refine ⟨_, hexec, finishTick_inputTaken_eq .., ?_, stagedOutput_finishTick (inputTaken_sameDspInputs ..)⟩
  rw [finishTick_mix]
  exact ofInt_signal_toInt s.ain

/-- Settles O22: the passthrough movement, with the input buffered. -/
theorem evenRecordTickBuffersTheInput : Obligations.EvenRecordTickBuffersTheInput := by
  intro s hphase
  have hexec : exec .atRecE s = .next (finishTick (inputTaken s (BitVec.ofInt 12 (signal s.ain)) s.ain)) := by
    rw [← bufferInput_eq_inputTaken]
    rfl
  refine ⟨_, hexec, ?_, ?_, stagedOutput_finishTick (inputTaken_sameDspInputs ..)⟩
  · refine (finishTick_inputTaken_eq ..).trans ?_
    rw [hphase]
    rfl
  · rw [finishTick_mix]
    exact ofInt_signal_toInt s.ain

/-- Settles O26: the second sample of the last read stands in `D1`. -/
theorem oddPlaybackTickPlaysTheSecondSample : Obligations.OddPlaybackTickPlaysTheSecondSample := by
  intro s hphase
  have hexec : exec .atPlayO s =
      .next (finishTick (inputTaken s (BitVec.ofInt 12 (clamp12 (signal s.d1 + signal s.ain))) s.rbuf)) := by
    rw [← mixStored_sampled_eq_inputTaken]
    rfl
  refine ⟨_, hexec, ?_, ?_, stagedOutput_finishTick (inputTaken_sameDspInputs ..)⟩
  · refine (finishTick_inputTaken_eq ..).trans ?_
    rw [hphase]
    rfl
  · rw [finishTick_mix]
    exact ofInt_clamp12_toInt _

/-- Settles O24: the row is steps S5 and S6 alone, on the mix that stands. -/
theorem recordDoneTickOnlyFilters : Obligations.RecordDoneTickOnlyFilters := fun s =>
  ⟨finishTick (beginTick s), rfl, finishTick_eq _, stagedOutput_finishTick (by constructor <;> rfl)⟩

/-! ### The even playback tick -/

/-- R178, R254: the normal read leaves the record at `PCUR`, decoded. -/
theorem readAndSample_pair (h : readAndSample s = some t) :
    t.d0 = (unpack (recordAt (deviceOf s (chipOf s.slot)) (recordBase s.slot s.pcur.toInt).toNat)).1 ∧
      t.d1 = (unpack (recordAt (deviceOf s (chipOf s.slot)) (recordBase s.slot s.pcur.toInt).toNat)).2 := by
  obtain ⟨⟨pair, u⟩, hread, rfl⟩ := (readAndSample_eq_some ..).1 h
  obtain ⟨-, rfl, -⟩ := (mappedRead_eq_some ..).1 hread
  exact ⟨rfl, rfl⟩

theorem readAndSample_completes (h : baseInRange (recordBase s.slot s.pcur.toInt) = true) :
    ∃ t, readAndSample s = some t := by
  rw [← Option.ne_none_iff_exists', ne_eq, readAndSample_eq_none_iff]
  simp [h]

/-- R254: steps S1 to S3 and the normal read, from the start of the tick. -/
theorem readAndSample_emitted_eq (h : readAndSample (emitOutput (beginTick s)) = some t) :
    t = afterNormalRead s t.d0 t.d1 := by
  have hstate := readAndSample_eq h
  rw [packedRead_congr (emitOutput_beginTick_devices s)] at hstate
  simpa [afterNormalRead] using hstate

/-- R262: the state that steps S1 to S4 of an even playback tick leave. -/
def playedAndAdvanced (s : State) (d0 d1 : Sample) : State :=
  advancePlay (mixStored d0 (afterNormalRead s d0 d1))

/-- R255, R256, R262: the fields that an even playback tick writes. -/
theorem finishTick_playedAndAdvanced_eq (s : State) (d0 d1 : Sample) : finishTick (playedAndAdvanced s d0 d1) =
    { s with
      tout := .continued
      d0 := (finishTick (playedAndAdvanced s d0 d1)).d0, d1 := (finishTick (playedAndAdvanced s d0 d1)).d1
      inSample := s.ain, mix := (finishTick (playedAndAdvanced s d0 d1)).mix
      pcur := toCursor (wrapOf s s.slot (s.pcur.toInt + effStep s.slot s.dir))
      outSample := (finishTick (playedAndAdvanced s d0 d1)).outSample
      lpBuf0 := (finishTick (playedAndAdvanced s d0 d1)).lpBuf0
      lpBuf1 := (finishTick (playedAndAdvanced s d0 d1)).lpBuf1
      hpBuf0 := (finishTick (playedAndAdvanced s d0 d1)).hpBuf0
      hpBuf1 := (finishTick (playedAndAdvanced s d0 d1)).hpBuf1
      phase := !s.phase
      trace := s.trace ++ [.dac s.outSample, packedRead s s.slot s.pcur.toInt, .adc s.ain] } := by
  rw [finishTick_d0, finishTick_d1, finishTick_mix]
  exact finishTick_eq _

/-- Settles O25, from the record that the normal read decodes and the fields that the tick writes. -/
theorem evenPlaybackTickReadsAndAdvances : Obligations.EvenPlaybackTickReadsAndAdvances := by
  intro s hphase b p hbase
  obtain ⟨u, hread⟩ := readAndSample_completes (s := emitOutput (beginTick s)) ((baseInRange_iff _).2 hbase)
  have hstate := readAndSample_emitted_eq hread
  obtain ⟨hfirst, hsecond⟩ := readAndSample_pair hread
  rw [emitOutput_beginTick_devices] at hfirst hsecond
  obtain ⟨hd0, hd1⟩ := unpack_toNat p
  have hexec : exec .atPlayE s = .next (finishTick (playedAndAdvanced s u.d0 u.d1)) := by
    rw [playedAndAdvanced, ← hstate]
    exact congrArg outcomeOf (congrArg (Option.map _) hread)
  refine ⟨_, hexec, ?_, ?_, ?_, ?_, stagedOutput_finishTick (by constructor <;> rfl)⟩
  · refine (finishTick_playedAndAdvanced_eq ..).trans ?_
    rw [hphase]
    rfl
  · rw [finishTick_d0]; exact hfirst ▸ hd0
  · rw [finishTick_d1]; exact hsecond ▸ hd1
  · rw [finishTick_mix, finishTick_d0]; exact ofInt_clamp12_toInt _

end Sys2Proof.Proofs
end

section
/-! PROOFS. The two forms of the audio tick (R250 against R257 to R265): what each of the steps S1 to S4 is in each mode
and phase, and the row that their sequence makes. -/

namespace Sys2Proof.Proofs

open Sys2Proof.Machine

variable {s t : State}

/-! ### S1 and S2 -/

/-- R251, R252: in OFF, PASSTHROUGH and RECORD the input passes to the mix. -/
theorem stepS2_stepS1_of_input (hplay : s.mode ≠ .playback) (hdone : s.mode ≠ .recordDone) :
    stepS2 (stepS1 (beginTick s)) = passInput s := by
  have hemit : stepS1 (beginTick s) = emitOutput (beginTick s) := if_neg hdone
  rw [hemit]
  exact if_neg (not_or.2 ⟨hplay, hdone⟩)

/-- R251, R252: in RECORD_DONE nothing crosses the ports. -/
theorem stepS2_stepS1_of_recordDone (hm : s.mode = .recordDone) : stepS2 (stepS1 (beginTick s)) = beginTick s := by
  have hsilent : stepS1 (beginTick s) = beginTick s := if_pos hm
  rw [hsilent]
  exact if_pos (.inr hm)

/-- R251, R252: in PLAYBACK the input is left to step S4. -/
theorem stepS2_stepS1_of_playback (hm : s.mode = .playback) :
    stepS2 (stepS1 (beginTick s)) = emitOutput (beginTick s) := by
  have hemit : stepS1 (beginTick s) = emitOutput (beginTick s) := if_neg (by simp [hm])
  rw [hemit]
  exact if_pos (.inl hm)

/-! ### S3 -/

theorem stepS3_of_not_record (hm : s.mode ≠ .record) : stepS3 s = some s := if_neg hm

theorem stepS3_of_even (hm : s.mode = .record) (hp : s.phase = false) :
    stepS3 s = some { s with rbuf := s.inSample } := (if_pos hm).trans (if_pos hp)

theorem stepS3_of_odd (hm : s.mode = .record) (hp : s.phase = true) : stepS3 s = recordPair s :=
  (if_pos hm).trans (if_neg (by simp [hp]))

/-! ### S4 -/

theorem stepS4_of_not_playback (hm : s.mode ≠ .playback) : stepS4 s = some s := if_neg hm

theorem stepS4_of_odd (hm : s.mode = .playback) (hp : s.phase = true) :
    stepS4 s = some (mixStored s.d1 (sampleInput s)) :=
  (if_pos hm).trans (if_neg (by simp [hp]))

/-- R254: the normal read leaves the modifiers that S4 then tests. -/
theorem readAndSample_modifiers (h : readAndSample s = some t) :
    t.grainAct = true ∨ t.freezeAct = true ↔ s.grainAct = true ∨ s.freezeAct = true := by
  rw [readAndSample_eq h]

/-- R254, R264: under either modifier the grain step follows the normal read. -/
theorem stepS4_of_modifier (hm : s.mode = .playback) (hp : s.phase = false)
    (hmod : s.grainAct = true ∨ s.freezeAct = true) :
    stepS4 s = (readAndSample s).bind fun t => grainStep t t.slot :=
  ((if_pos hm).trans (if_pos hp)).trans
    (Option.bind_congr fun _ hread => if_pos ((readAndSample_modifiers hread).2 hmod))

/-- R254, R262: without a modifier the read pair is played. -/
theorem stepS4_of_no_modifier (hm : s.mode = .playback) (hp : s.phase = false)
    (hmod : ¬(s.grainAct = true ∨ s.freezeAct = true)) :
    stepS4 s = (readAndSample s).map fun t => advancePlay (mixStored t.d0 t) := by
  rw [Option.map_eq_bind]
  exact ((if_pos hm).trans (if_pos hp)).trans
    (Option.bind_congr fun _ hread => if_neg (mt (readAndSample_modifiers hread).1 hmod))

/-! ### The sequence of steps -/

/-- R257, R258: without recording or playback S1 and S2 are the whole movement. -/
theorem audioTickSteps_of_idle (hm : s.mode = .off ∨ s.mode = .passthrough) :
    audioTickSteps s = .next (finishTick (passInput s)) := by
  obtain ⟨hplay, hdone, hrecord⟩ : s.mode ≠ .playback ∧ s.mode ≠ .recordDone ∧ s.mode ≠ .record := by
    rcases hm with hm | hm <;> simp [hm]
  rw [audioTickSteps, stepS2_stepS1_of_input hplay hdone, stepS3_of_not_record (by simpa using hrecord),
    Option.bind_some, stepS4_of_not_playback (by simpa using hplay)]
  rfl

/-- R261: in RECORD_DONE every one of S1 to S4 is skipped. -/
theorem audioTickSteps_of_recordDone (hm : s.mode = .recordDone) : audioTickSteps s = execAtDone s := by
  rw [audioTickSteps, stepS2_stepS1_of_recordDone hm, stepS3_of_not_record (by simp [hm]), Option.bind_some,
    stepS4_of_not_playback (by simp [hm])]
  rfl

/-- R259: S3 of an even tick buffers the input and writes no storage. -/
theorem audioTickSteps_of_record_even (hm : s.mode = .record) (hp : s.phase = false) :
    audioTickSteps s = execAtRecE s := by
  rw [audioTickSteps, stepS2_stepS1_of_input (by simp [hm]) (by simp [hm]),
    stepS3_of_even (by simpa using hm) (by simpa using hp), Option.bind_some, stepS4_of_not_playback (by simp [hm])]
  rfl

/-- R250, R260: S3 leaves RECORD or enters RECORD_DONE, so S4 does nothing in the same tick. -/
theorem audioTickSteps_of_record_odd (hm : s.mode = .record) (hp : s.phase = true) :
    audioTickSteps s = execAtRecO s := by
  have hskip : (recordPair (passInput s)).bind stepS4 = recordPair (passInput s) := by
    refine (Option.bind_congr fun t hpair => stepS4_of_not_playback ?_).trans (Option.bind_fun_some _)
    rcases recordPair_mode hpair with hmode | hmode <;> simp [hmode, hm]
  rw [audioTickSteps, stepS2_stepS1_of_input (by simp [hm]) (by simp [hm]),
    stepS3_of_odd (by simpa using hm) (by simpa using hp), hskip]
  rfl

/-- R250: in PLAYBACK S4 follows S1, and S2 and S3 do nothing. -/
theorem audioTickSteps_of_playback (hm : s.mode = .playback) :
    audioTickSteps s = outcomeOf ((stepS4 (emitOutput (beginTick s))).map finishTick) := by
  rw [audioTickSteps, stepS2_stepS1_of_playback hm, stepS3_of_not_record (by simp [hm]), Option.bind_some]
  rfl

/-- R263: S4 of an odd tick mixes the second sample of the last read. -/
theorem audioTickSteps_of_playback_odd (hm : s.mode = .playback) (hp : s.phase = true) :
    audioTickSteps s = execAtPlayO s := by
  rw [audioTickSteps_of_playback hm, stepS4_of_odd (by simpa using hm) (by simpa using hp)]
  rfl

/-- R264, R265: under either modifier S4 substitutes the grain step. -/
theorem audioTickSteps_of_modifier (hm : s.mode = .playback) (hp : s.phase = false)
    (hmod : s.grainAct = true ∨ s.freezeAct = true) :
    audioTickSteps s = outcomeOf ((playSubstituted s).map finishTick) := by
  rw [audioTickSteps_of_playback hm, stepS4_of_modifier (by simpa using hm) (by simpa using hp) (by simpa using hmod)]
  rfl

/-- R262: without a modifier S4 plays the read pair and advances. -/
theorem audioTickSteps_of_playback_even (hm : s.mode = .playback) (hp : s.phase = false)
    (hmod : ¬(s.grainAct = true ∨ s.freezeAct = true)) : audioTickSteps s = execAtPlayE s := by
  rw [audioTickSteps_of_playback hm,
    stepS4_of_no_modifier (by simpa using hm) (by simpa using hp) (by simpa using hmod), Option.map_map]
  rfl

/-- Settles O29: the row that the mode, the phase and the modifiers select is what the steps amount to under them. -/
theorem dispatchFormEqualsStepForm : Obligations.DispatchFormEqualsStepForm := by
  intro s
  rw [← runTickOp_eq_exec, selectTick]
  split
  next hm => exact (audioTickSteps_of_idle (.inl hm)).symm
  next hm => exact (audioTickSteps_of_idle (.inr hm)).symm
  next hm =>
    split_ifs with hp
    · exact (audioTickSteps_of_record_odd hm hp).symm
    · exact (audioTickSteps_of_record_even hm (eq_false_of_ne_true hp)).symm
  next hm => exact (audioTickSteps_of_recordDone hm).symm
  next hm =>
    split_ifs with hp hgrain hfreeze
    · exact (audioTickSteps_of_playback_odd hm hp).symm
    · exact (audioTickSteps_of_modifier hm (eq_false_of_ne_true hp) (.inl hgrain)).symm
    · exact (audioTickSteps_of_modifier hm (eq_false_of_ne_true hp) (.inr hfreeze)).symm
    · exact (audioTickSteps_of_playback_even hm (eq_false_of_ne_true hp) (not_or.2 ⟨hgrain, hfreeze⟩)).symm

end Sys2Proof.Proofs
end

section
/-! PROOFS. Host writes and timer events (R291 to R297, R313): the value each legalisation stores, which numbers
a write ignores, and the audio tick that an accepted or released timer event runs. -/

namespace Sys2Proof.Proofs

open Sys2Proof.Machine

variable {s t : State}

/-! ### The audio tick of a timer event -/

/-- R108, R250: the audio tick is the row that the state selects. -/
theorem audioTick_eq_exec (s : State) : audioTick s = exec (selectTick (tickFields s)).instr s :=
  runTickOp_eq_exec _ s

/-- Settles O18: the level that `ATICK` sets first is no field of the dispatch word. -/
theorem timerEventRunsOrIsHeld : Obligations.TimerEventRunsOrIsHeld := by
  intro s a
  rcases timerEvent_cases { s with ain := a } with ⟨hon, hrun⟩ | ⟨hoff, hheld⟩
  · exact ⟨fun _ => hrun.trans (audioTick_eq_exec _), fun hoff => absurd (hon.symm.trans hoff) (by decide)⟩
  · exact ⟨fun hon => absurd (hoff.symm.trans hon) (by decide), fun _ => hheld⟩

/-! ### Writes to `CTRL` -/

/-- Settles O17: the bits that the write changes before the tick are no fields of the dispatch word. -/
theorem controlWriteReleasesThePendingTick : Obligations.ControlWriteReleasesThePendingTick := by
  intro s en clr
  rcases writeCtrl_cases en clr s with ⟨hen, hpend, hrelease⟩ | ⟨hno, hset⟩
  · exact ⟨fun _ => hrelease.trans (audioTick_eq_exec _), fun hno => absurd ⟨hen, hpend⟩ hno⟩
  · exact ⟨fun hyes => absurd hyes hno, fun _ => hset⟩

/-- R292, R296: `TICK_EN` and `OVR` end as written, for the tick that the write may release leaves them. -/
theorem writeCtrl_bits {en clr : Bool} (h : writeCtrl en clr s = .next t) :
    t.tickEn = en ∧ t.ovr = (s.ovr && !clr) := by
  rcases writeCtrl_cases en clr s with ⟨hen, -, heq⟩ | ⟨-, heq⟩ <;> rw [heq] at h
  · have hcontrol := runTickOp_control h
    exact ⟨hcontrol.tickEn.trans hen.symm, hcontrol.ovr⟩
  · cases h
    exact ⟨rfl, rfl⟩

/-! ### Legalised values -/

/-- R292: a register stores the low bits that fit its width. -/
theorem lowBits_toNat (d : Word24) (n : Nat) : (d.extractLsb' 0 n).toNat = d.toNat % 2 ^ n := by
  rw [BitVec.extractLsb'_toNat, Nat.shiftRight_zero]

/-- R292: the value of `RATE` and `GRAIN_SIZE`. -/
theorem legalAtLeastOne_toNat (d : Word24) : (legalAtLeastOne d).toNat = max 1 (d.toNat % 65536) := by
  have hlow : (d.extractLsb' 0 16).toNat = d.toNat % 65536 := lowBits_toNat d 16
  unfold legalAtLeastOne
  split
  next hzero =>
    rw [hzero] at hlow
    rw [← hlow]
    rfl
  next hne => rw [← hlow, max_eq_right (Nat.one_le_iff_ne_zero.2 fun h0 => hne (BitVec.eq_of_toNat_eq h0))]

/-- R292: the value of `BITRES`, which 4 bits hold. -/
theorem legalBitres_toNat (d : Word24) : (legalBitres d).toNat = min 12 (max 1 (d.toNat % 16)) := by
  rw [legalBitres, lowBits_toNat, BitVec.toNat_ofNat]
  exact Nat.mod_eq_of_lt ((min_le_left _ _).trans_lt (by decide))

/-! ### Writes by register number -/

/-- R291, R292: a write to a register other than `CTRL` and `CMD` stores what its row says. -/
theorem exec_hwr_of_param (r : HostReg) (d : Word24) (s : State) (hctrl : r ≠ .ctrl := by decide)
    (hcmd : r ≠ .cmd := by decide) : exec (.hwr (hostRegNumber r) d) s = .next (writeParam r d s) := by
  change execHwr (hostRegNumber r) d s = _
  rw [execHwr, (hostRegOfNumber_eq_some _ r).2 rfl]
  cases r with
  | ctrl => exact absurd rfl hctrl
  | cmd => exact absurd rfl hcmd
  | _ => rfl

/-- R293: a write to `CMD` is one control tick or nothing. -/
theorem exec_hwr_cmd (d : Word24) (s : State) :
    exec (.hwr 0x0F#6 d) s = if d.getLsbD 0 = true then exec .ctick s else .next s :=
  apply_ite Host.Outcome.next (d.getLsbD 0 = true) (controlTick s) s

/-- Settles O15: each parameter by the row that `writeParam` has for it and the value of its legalisation. -/
theorem hostWritesAreLegalised : Obligations.HostWritesAreLegalised := by
  intro s d
  exact ⟨⟨_, exec_hwr_of_param .gest d s, lowBits_toNat d 8⟩, exec_hwr_of_param .msNow d s,
    ⟨_, exec_hwr_of_param .rate d s, legalAtLeastOne_toNat d⟩,
    ⟨_, exec_hwr_of_param .bitres d s, legalBitres_toNat d⟩,
    ⟨_, exec_hwr_of_param .cutLp d s, lowBits_toNat d 8⟩, ⟨_, exec_hwr_of_param .fbLp d s, lowBits_toNat d 16⟩,
    ⟨_, exec_hwr_of_param .cutHp d s, lowBits_toNat d 8⟩, ⟨_, exec_hwr_of_param .fbHp d s, lowBits_toNat d 16⟩,
    ⟨_, exec_hwr_of_param .grainSize d s, legalAtLeastOne_toNat d⟩,
    ⟨_, exec_hwr_of_param .stretch d s, lowBits_toNat d 16⟩, rfl, fun _ => writeCtrl_bits, exec_hwr_cmd d s⟩

/-! ### Ignored writes and reads of 0 -/

/-- R291: above the parameters no register takes a value from a write. -/
theorem writeParam_of_number_ge {r : HostReg} (h : 0x0B#6 ≤ hostRegNumber r) (d : Word24) (s : State) :
    writeParam r d s = s := by
  cases r with
  | gest | msNow | rate | bitres | cutLp | fbLp | cutHp | fbHp | grainSize | stretch => exact absurd h (by decide)
  | _ => rfl

/-- R297: above the parameters every number but that of `CMD` is read-only or unmapped. -/
theorem exec_hwr_of_ignored {reg : RegNumber} (hge : 0x0B#6 ≤ reg) (hcmd : reg ≠ 0x0F#6) (d : Word24) (s : State) :
    exec (.hwr reg d) s = .next s := by
  cases hr : hostRegOfNumber reg with
  | none =>
    change execHwr reg d s = _
    rw [execHwr, hr]
  | some r =>
    obtain rfl := (hostRegOfNumber_eq_some reg r).1 hr
    have hctrl : r ≠ .ctrl := fun h => absurd (h ▸ hge) (by decide)
    rw [exec_hwr_of_param r d s hctrl (fun h => hcmd (congrArg hostRegNumber h)), writeParam_of_number_ge hge]

/-- Settles O16: the ignored numbers are those above the parameters but `CMD`; reads meet the two unmapped ranges. -/
theorem unmappedAndReadOnlyWritesAreIgnored : Obligations.UnmappedAndReadOnlyWritesAreIgnored := by
  refine ⟨fun s reg d hrange => exec_hwr_of_ignored (by bv_omega) (by bv_omega) d s, fun s reg hrange => ?_⟩
  have hzero : hostReadValue s reg = 0#24 := hrange.elim hostReadValue_gap fun habove =>
    hostReadValue_of_unmapped (hostRegOfNumber_above reg habove)
  rw [← hzero]
  rfl

end Sys2Proof.Proofs
end
